-- ==== Sys2Proof/Word.lean ====
section
/-! DEFINITION. The word types of the block: a byte, the 32-bit operand and result word, the 64-bit
request word (spec/00_scope.md R9, spec/30_encoding.md R81). Values whose width is a parameter
(PCW, TW, CW) are natural numbers below 2^width. -/

namespace Sys2Proof

/-- One byte. -/
abbrev Byte := BitVec 8

/-- A 32-bit value: operand A, the result bus, a snapshot register. -/
abbrev Word := BitVec 32

/-- A request word of the operation port (R81). -/
abbrev Request := BitVec 64

end Sys2Proof
end

