-- ==== Sys2Proof/Syntax.lean ====
section
/-! DEFINITION. The nineteen operations of the operation port (spec/30_encoding.md R84), one
constructor per row of the opcode map. The operand types are exactly the fields a format reads
(R82, R83), so no operand value is shut out and none outside its field can be written. -/

namespace Sys2Proof

/-- Operand B[0] of TMR_ARM (R161): 0 is TOTAL, 1 is INTERVAL. -/
inductive ArmMode where
  | total
  | interval
deriving DecidableEq, Repr

/-- An operation of the port (R84). -/
inductive Instr where
  /-- FRM_BYTE b (41_framing R120). -/
  | frmByte (b : Byte)
  /-- IRQ_DISABLE (42_counter_timer R154). -/
  | irqDisable
  /-- IRQ_ENABLE (R155). -/
  | irqEnable
  /-- IRQ_SAVE_DISABLE (R156). -/
  | irqSaveDisable
  /-- IRQ_RESTORE b (R157). -/
  | irqRestore (saved : Bool)
  /-- CNT_READ (R159). -/
  | cntRead
  /-- CNT_READ_RESET (R160). -/
  | cntReadReset
  /-- TMR_ARM mode, V (R161). -/
  | tmrArm (mode : ArmMode) (v : Word)
  /-- TMR_READ_SYNC (R167). -/
  | tmrReadSync
  /-- TMR_READ_FINISHED (R166). -/
  | tmrReadFinished
  /-- RB_COPY (43_ringbuffer_stats R201). -/
  | rbCopy
  /-- RB_SELECT rate (R203). -/
  | rbSelect (rate : Word)
  /-- RB_STATS window (R206). -/
  | rbStats (window : Word)
  /-- RB_EXCURSION (R208). -/
  | rbExcursion
  /-- RB_DRIFT (R209). -/
  | rbDrift
  /-- RB_SHRINK (R210). -/
  | rbShrink
  /-- SNAP_READ sel (R211). -/
  | snapRead (sel : Byte)
  /-- ISQRT q (40_integer_math R101). -/
  | isqrt (q : Word)
  /-- FMT value, pos, count (R104). -/
  | fmt (value : Word) (pos count : Byte)
deriving DecidableEq, Repr

end Sys2Proof
end

