-- ==== Sys2Proof/Decode.lean ====
section
/-! DEFINITION. The request word (spec/30_encoding.md R81 to R85): its fields, the six formats, the
decoder, total on every 64-bit word and refusing by name, and the encoder. -/

namespace Sys2Proof

/-- OP, bits 63:59 (R81). -/
def fieldOp (w : Request) : BitVec 5 := w.extractLsb' 59 5

/-- The reserved field, bits 58:48, which must be 0 (R81). -/
def fieldReserved (w : Request) : BitVec 11 := w.extractLsb' 48 11

/-- Operand C, bits 47:40 (R81). -/
def fieldC (w : Request) : Byte := w.extractLsb' 40 8

/-- Operand B, bits 39:32 (R81). -/
def fieldB (w : Request) : Byte := w.extractLsb' 32 8

/-- Operand A, bits 31:0 (R81). -/
def fieldA (w : Request) : Word := w.extractLsb' 0 32

/-- The formats of R82. -/
inductive Format where
  | op0
  | opb
  | opb1
  | opa
  | opab1
  | opabc
deriving DecidableEq, Repr

/-- The must-be-zero column of R82: every field the format does not read, and the reserved field, is
zero in w. -/
def Format.fits (f : Format) (w : Request) : Bool :=
  decide (fieldReserved w = 0) &&
    match f with
    | .op0 => decide (fieldC w = 0) && decide (fieldB w = 0) && decide (fieldA w = 0)
    | .opb => decide (fieldC w = 0) && decide (fieldA w = 0)
    | .opb1 => decide (fieldC w = 0) && decide ((fieldB w).toNat < 2) && decide (fieldA w = 0)
    | .opa => decide (fieldC w = 0) && decide (fieldB w = 0)
    | .opab1 => decide (fieldC w = 0) && decide ((fieldB w).toNat < 2)
    | .opabc => true

/-- Why a request word matches no row of the opcode map (R85); both raise ILLEGAL_OP. -/
inductive Illegal where
  /-- OP is 0x00 or 0x14 to 0x1F. -/
  | opcode
  /-- A field the format requires to be 0 is not. -/
  | mustBeZero
deriving DecidableEq, Repr

/-- What the decoder reads from a request word. -/
inductive Decoded where
  | instr (i : Instr)
  | illegal (why : Illegal)
deriving DecidableEq, Repr

/-- The instruction i, when w fits its format f (R82). -/
def Format.accept (f : Format) (w : Request) (i : Instr) : Decoded :=
  if f.fits w then .instr i else .illegal .mustBeZero

/-- Bit 0 of operand B as the saved interrupt enable (R157). -/
def savedOfB (b : Byte) : Bool := b.getLsbD 0

/-- Bit 0 of operand B as the mode of TMR_ARM (R161). -/
def armModeOfB (b : Byte) : ArmMode := if b.getLsbD 0 then .interval else .total

/-- The opcode map (R84), read from OP. -/
def decode (w : Request) : Decoded :=
  match (fieldOp w).toNat with
  | 0x01 => Format.opb.accept w (.frmByte (fieldB w))
  | 0x02 => Format.op0.accept w .irqDisable
  | 0x03 => Format.op0.accept w .irqEnable
  | 0x04 => Format.op0.accept w .irqSaveDisable
  | 0x05 => Format.opb1.accept w (.irqRestore (savedOfB (fieldB w)))
  | 0x06 => Format.op0.accept w .cntRead
  | 0x07 => Format.op0.accept w .cntReadReset
  | 0x08 => Format.opab1.accept w (.tmrArm (armModeOfB (fieldB w)) (fieldA w))
  | 0x09 => Format.op0.accept w .tmrReadSync
  | 0x0A => Format.op0.accept w .tmrReadFinished
  | 0x0B => Format.op0.accept w .rbCopy
  | 0x0C => Format.opa.accept w (.rbSelect (fieldA w))
  | 0x0D => Format.opa.accept w (.rbStats (fieldA w))
  | 0x0E => Format.op0.accept w .rbExcursion
  | 0x0F => Format.op0.accept w .rbDrift
  | 0x10 => Format.op0.accept w .rbShrink
  | 0x11 => Format.opb.accept w (.snapRead (fieldB w))
  | 0x12 => Format.opa.accept w (.isqrt (fieldA w))
  | 0x13 => Format.opabc.accept w (.fmt (fieldA w) (fieldB w) (fieldC w))
  | _ => .illegal .opcode

/-- The request word with the given fields: `OP * 2^59 + C * 2^40 + B * 2^32 + A` (R81). -/
def requestWord (op : Nat) (c b : Byte) (a : Word) : Request :=
  BitVec.ofNat 64 (op * 2 ^ 59 + c.toNat * 2 ^ 40 + b.toNat * 2 ^ 32 + a.toNat)

/-- The operation code of an instruction (R84). -/
def Instr.opcode : Instr → Nat
  | .frmByte _ => 0x01
  | .irqDisable => 0x02
  | .irqEnable => 0x03
  | .irqSaveDisable => 0x04
  | .irqRestore _ => 0x05
  | .cntRead => 0x06
  | .cntReadReset => 0x07
  | .tmrArm _ _ => 0x08
  | .tmrReadSync => 0x09
  | .tmrReadFinished => 0x0A
  | .rbCopy => 0x0B
  | .rbSelect _ => 0x0C
  | .rbStats _ => 0x0D
  | .rbExcursion => 0x0E
  | .rbDrift => 0x0F
  | .rbShrink => 0x10
  | .snapRead _ => 0x11
  | .isqrt _ => 0x12
  | .fmt _ _ _ => 0x13

/-- The format of an instruction (R84). -/
def Instr.format : Instr → Format
  | .frmByte _ => .opb
  | .irqDisable => .op0
  | .irqEnable => .op0
  | .irqSaveDisable => .op0
  | .irqRestore _ => .opb1
  | .cntRead => .op0
  | .cntReadReset => .op0
  | .tmrArm _ _ => .opab1
  | .tmrReadSync => .op0
  | .tmrReadFinished => .op0
  | .rbCopy => .op0
  | .rbSelect _ => .opa
  | .rbStats _ => .opa
  | .rbExcursion => .op0
  | .rbDrift => .op0
  | .rbShrink => .op0
  | .snapRead _ => .opb
  | .isqrt _ => .opa
  | .fmt _ _ _ => .opabc

/-- The mode of TMR_ARM as operand B (R161). -/
def armModeToB : ArmMode → Byte
  | .total => 0
  | .interval => 1

/-- Operand A of an instruction; 0 where its format does not read A (R82, R84). -/
def Instr.operandA : Instr → Word
  | .tmrArm _ v => v
  | .rbSelect rate => rate
  | .rbStats window => window
  | .isqrt q => q
  | .fmt value _ _ => value
  | .frmByte _ | .irqDisable | .irqEnable | .irqSaveDisable | .irqRestore _ | .cntRead
  | .cntReadReset | .tmrReadSync | .tmrReadFinished | .rbCopy | .rbExcursion | .rbDrift
  | .rbShrink | .snapRead _ => 0

/-- Operand B of an instruction; 0 where its format does not read B (R82, R84). -/
def Instr.operandB : Instr → Byte
  | .frmByte b => b
  | .irqRestore saved => if saved then 1 else 0
  | .tmrArm mode _ => armModeToB mode
  | .snapRead sel => sel
  | .fmt _ pos _ => pos
  | .irqDisable | .irqEnable | .irqSaveDisable | .cntRead | .cntReadReset | .tmrReadSync
  | .tmrReadFinished | .rbCopy | .rbSelect _ | .rbStats _ | .rbExcursion | .rbDrift | .rbShrink
  | .isqrt _ => 0

/-- Operand C of an instruction; 0 where its format does not read C (R82, R84). -/
def Instr.operandC : Instr → Byte
  | .fmt _ _ count => count
  | .frmByte _ | .irqDisable | .irqEnable | .irqSaveDisable | .irqRestore _ | .cntRead
  | .cntReadReset | .tmrArm _ _ | .tmrReadSync | .tmrReadFinished | .rbCopy | .rbSelect _
  | .rbStats _ | .rbExcursion | .rbDrift | .rbShrink | .snapRead _ | .isqrt _ => 0

/-- The request word of an instruction (R81, R84). -/
def encode (i : Instr) : Request :=
  requestWord i.opcode i.operandC i.operandB i.operandA

/-- The instruction the decoder reads from the bits w of a row of the opcode table. Every row is one
64-bit word, presented whole on the port (R80), so there is no byte order to lay it out in. -/
def decodeTableWord (_nbits w : Nat) : Option Instr :=
  match decode (BitVec.ofNat 64 w) with
  | .instr i => some i
  | .illegal _ => none

end Sys2Proof
end

