-- ==== Sys2Proof/Config.lean ====
section
/-! DEFINITION. The parameters of the block (spec/00_scope.md R7), their reference values, and the
free values. A model takes the parameters as arguments: State carries one `Config`, and statements
hold for every well-formed one (notes/assumptions/1.md). -/

namespace Sys2Proof

/-- The byte-update function CHK_UPD of the checksum (R7, D5). The source says only "an additive/XOR
checksum". `other n` stands for any further function, uninterpreted (notes/assumptions/2.md). -/
inductive ChkUpd where
  | sum
  | xor
  | other (n : Nat)
deriving DecidableEq, Repr

/-- The final byte function CHK_FIN of the checksum (R7, D5): `low` takes the accumulator's low byte,
which for CW = 8 is the identity of the reference parameters. `other n` is uninterpreted. -/
inductive ChkFin where
  | low
  | other (n : Nat)
deriving DecidableEq, Repr

/-- The parameters of R7, in the order of its table. ACC_W = 32 and PROD_W = 64 are fixed there. -/
structure Config where
  /-- MAGIC[0] to MAGIC[3]. -/
  magic0 : Byte
  magic1 : Byte
  magic2 : Byte
  magic3 : Byte
  /-- MAGIC_RETEST: whether a mismatching byte is re-tested against MAGIC[0]. -/
  magicRetest : Bool
  /-- MAX_PAYLOAD: exclusive upper bound of the length byte. -/
  maxPayload : Nat
  /-- PMIN: the personality minimum payload length. -/
  pmin : Nat
  /-- CW: width of the checksum accumulator. -/
  cw : Nat
  /-- CHK_INIT. -/
  chkInit : Nat
  /-- CHK_UPD. -/
  chkUpd : ChkUpd
  /-- CHK_FIN. -/
  chkFin : ChkFin
  /-- PCW: width of the pulse counter and of each ring entry. -/
  pcw : Nat
  /-- TW: width of the countdown timer and its shadow. -/
  tw : Nat
  /-- CAP: ring-buffer capacity. -/
  cap : Nat
  /-- SHORT: short sub-window length. -/
  short : Nat
  /-- W_HIGH: window length in HIGH_RATE. -/
  wHigh : Nat
  /-- T_UP: LOW to HIGH threshold. -/
  tUp : Nat
  /-- T_DOWN: HIGH to LOW threshold. -/
  tDown : Nat
  /-- K: rate scale. -/
  k : Nat
  /-- K2: tolerance numerator. -/
  k2 : Nat
  /-- EXC_MULT: excursion confidence multiplier. -/
  excMult : Nat
  /-- EXC_SCALE: the per-tick scale of the excursion threshold. -/
  excScale : Nat
  /-- DRIFT_C: drift-test constant. -/
  driftC : Nat
deriving DecidableEq, Repr

/-- The reference values of R7 (D2): the spec's own choice for its test vectors. State.reset carries
them (DESIGN CHOICE, notes/assumptions/1.md). -/
def Config.reference : Config where
  magic0 := 0xA5
  magic1 := 0x5A
  magic2 := 0x0F
  magic3 := 0xF0
  magicRetest := false
  maxPayload := 64
  pmin := 0
  cw := 8
  chkInit := 0
  chkUpd := .sum
  chkFin := .low
  pcw := 16
  tw := 16
  cap := 8
  short := 4
  wHigh := 4
  tUp := 100
  tDown := 80
  k := 1
  k2 := 100
  excMult := 20
  excScale := 1
  driftC := 7

/-- Free value: the checksum update functions other than sum and XOR (notes/assumptions/2.md). -/
opaque Config.chkUpdOther : Nat → Nat → Byte → Nat

/-- Free value: the final checksum functions other than the low byte (notes/assumptions/2.md). -/
opaque Config.chkFinOther : Nat → Nat → Byte

/-- Free value: the n-th unspecified byte (notes/assumptions/10.md, notes/assumptions/11.md). -/
opaque Config.freeByte : Nat → Byte

/-- Free value: the n-th unspecified ring entry, before it is cut to PCW bits
(notes/assumptions/10.md). -/
opaque Config.freeEntry : Nat → Nat

end Sys2Proof
end

