-- ==== Sys2Proof/Machine/State.lean ====
section
/-! DEFINITION. The state of the block: every register and buffer of spec/10_state.md R20 to R47,
grouped by unit, its model-only FAULT (R29), its operation position OPSTATE (R45), its parameters
(spec/00_scope.md R7), and the model's own fields. Plain data. A register whose width is a parameter
(PCW, TW, CW) is a natural number; Safety states that it stays below 2^width
(notes/assumptions/15.md). -/

namespace Sys2Proof.Machine

open Sys2Proof

/-- The framing unit's state FSTATE (R22). -/
inductive FState where
  | magic
  | command
  | length
  | payload
  | checksum
deriving DecidableEq, Repr

/-- The timer mode TMODE (R36). -/
inductive TMode where
  | idle
  | total
  | interval
  | stopped
deriving DecidableEq, Repr

/-- The range state RANGE (R42). -/
inductive Range where
  | low
  | high
deriving DecidableEq, Repr

/-- The restart causes (R252), as RESTART_CAUSE, RESTART and DIAG carry them. -/
inductive RestartCause where
  | none
  | badLength
  | badChecksum
deriving DecidableEq, Repr

/-- The model-fault codes (R251). -/
inductive FaultCode where
  | illegalOp
  | overflow
  | armActive
  | armRange
  | badWindow
  | statsUnavailable
  | fmtRange
deriving DecidableEq, Repr

/-- What raised a model fault: the request word of the operation, or the edge handler (R29, R251). -/
inductive Origin where
  | request (w : Request)
  | edgeHandler
deriving DecidableEq, Repr

/-- The contents of FAULT when it is set (R29). -/
structure FaultRecord where
  code : FaultCode
  origin : Origin
deriving DecidableEq, Repr

/-- Framing unit registers (R22 to R26). -/
structure Framing where
  /-- FSTATE, 3 bits. -/
  fstate : FState
  /-- MIDX, 2 bits. -/
  midx : BitVec 2
  /-- FCMD, 8 bits. -/
  fcmd : Byte
  /-- FLEN, 8 bits. -/
  flen : Byte
  /-- PIDX, 8 bits. -/
  pidx : Byte
  /-- CHKACC, CW bits. -/
  chkacc : Nat
deriving DecidableEq, Repr

/-- The two buffers, the block's only memory (spec/20_memory.md R60). -/
structure Memory where
  /-- PBUF[0..MAX_PAYLOAD-1] (R27). -/
  pbuf : List Byte
  /-- RB[0..CAP-1], PCW bits each (R39). -/
  rb : List Nat
deriving DecidableEq, Repr

/-- Block status (R28). -/
structure Status where
  /-- HALTED, 1 bit. -/
  halted : Bool
  /-- RESTART_CAUSE, 8 bits. -/
  cause : RestartCause
deriving DecidableEq, Repr

/-- Interrupt control (R30, R31). -/
structure IrqCtl where
  /-- IE, 1 bit. -/
  ie : Bool
  /-- PEND_EDGE, 1 bit. -/
  pendEdge : Bool
  /-- PEND_TICK, 1 bit. -/
  pendTick : Bool
deriving DecidableEq, Repr

/-- Counter/timer unit registers (R32 to R38). -/
structure CounterTimer where
  /-- PULSE, PCW bits. -/
  pulse : Nat
  /-- LIVE, TW bits. -/
  live : Nat
  /-- SHADOW, TW bits. -/
  shadow : Nat
  /-- TMODE, 2 bits. -/
  tmode : TMode
  /-- RELOAD, TW bits. -/
  reload : Nat
  /-- FINISHED, 1 bit held in one byte. -/
  finished : Bool
deriving DecidableEq, Repr

/-- Ring-buffer registers beside the buffer itself (R40 to R43). -/
structure RingStats where
  /-- CURSOR, 8 bits. -/
  cursor : Byte
  /-- VALID, 8 bits. -/
  valid : Byte
  /-- RANGE, 1 bit. -/
  range : Range
  /-- C_CURSOR, 8 bits. -/
  cCursor : Byte
  /-- C_VALID, 8 bits. -/
  cValid : Byte
deriving DecidableEq, Repr

/-- The snapshot registers S_* (R44). -/
structure Snapshot where
  avail : Bool
  window : Byte
  total : Word
  newer : Word
  older : Word
  short : Word
  rlong : Word
  rshort : Word
  tol : Word
  tolv : Bool
deriving DecidableEq, Repr

/-- The snapshot registers at reset, and when statistics are unavailable: all 0 (R44, R206). -/
def Snapshot.zero : Snapshot := ⟨false, 0, 0, 0, 0, 0, 0, 0, 0, false⟩

/-- A multi-byte value being read byte by byte (R64): the indices of the bytes not read yet, and the
value assembled from the bytes read. -/
structure ByteAcc where
  left : List Nat
  value : Nat
deriving DecidableEq, Repr

/-- The traversal of RB_STATS in progress (R205): the operand W, the entry index i, the bytes of
entry i read so far, and the running total with its checkpoints. -/
structure Traversal where
  window : Word
  i : Nat
  entry : ByteAcc
  total : Nat
  newer : Nat
  short : Nat
deriving DecidableEq, Repr

/-- OPSTATE (R45): idle, or the position in a multi-step operation with its partial values. -/
inductive OpState where
  | idle
  /-- Inside an attempt of TMR_READ_SYNC (R167): the bytes of LIVE and of SHADOW read so far. -/
  | tmrReadSync (l sh : ByteAcc)
  /-- Inside RB_STATS (R206). -/
  | rbStats (t : Traversal)
deriving DecidableEq, Repr

/-- An output of a step (R48). -/
inductive Output where
  /-- The result bus RES. -/
  | res (v : Word)
  /-- The string output STR. -/
  | str (bytes : List Byte)
  | dispatch (cmd len : Byte) (payload : List Byte)
  | diag (cause : RestartCause)
  | restart (cause : RestartCause)
  | finishedEvent
  | edgeFeedback
deriving DecidableEq, Repr

/-- One turn of one agent (spec/00_scope.md R12, R86). The schedule is a list of these
(notes/assumptions/3.md). -/
inductive Move where
  /-- The main-loop agent presents a request word on the operation port (R80). -/
  | request (w : Request)
  /-- The main-loop agent takes the next micro-step of the operation in progress (R45). -/
  | micro
  /-- The edge ISR agent runs its handler (R152, R158). -/
  | edgeIsr
  /-- The tick ISR agent runs its handler (R152, R162). -/
  | tickIsr
  /-- The environment delivers EDGE (R150). -/
  | edge
  /-- The environment delivers TICK (R151). -/
  | tick
  /-- The environment delivers RESET (R280). -/
  | reset
deriving DecidableEq, Repr

/-- Why a step stops. -/
inductive Fault where
  /-- Raised by step in a state whose FAULT is set: such a state has no further step, not even RESET
  (R29, R251). Safe: the rule itself says the model is stuck. -/
  | modelFault (r : FaultRecord)
  /-- Raised by FRM_BYTE where PIDX or FLEN would take it outside PBUF. R61 derives that this cannot
  occur, and no run from reset reaches it (notes/assumptions/12.md). Safe: the model stops. -/
  | pbufIndex
deriving DecidableEq, Repr

/-- Why a step is refused. -/
inductive Refusal where
  /-- Raised by exec for an instruction that has no meaning yet; no arm answers so. Safe. -/
  | notModelled (mnemonic : String)
  /-- Raised by step when the configuration breaks a constraint of R7: a model must refuse it (R8).
  Safe: the rule asks for it. -/
  | badConfig
deriving DecidableEq, Repr

/-- The state of the block. -/
structure State where
  /-- The parameters of R7, which no step changes (R280). -/
  cfg : Config
  frm : Framing
  mem : Memory
  status : Status
  /-- FAULT (R29). -/
  fault : Option FaultRecord
  irq : IrqCtl
  ct : CounterTimer
  rbs : RingStats
  snap : Snapshot
  /-- OPSTATE (R45). -/
  op : OpState
  /-- Model's own: the schedule, the next move first (notes/assumptions/3.md). -/
  moves : List Move
  /-- Model's own: the byte-order choices of the byte reads to come (R64, notes/assumptions/6.md). -/
  picks : List Nat
  /-- Model's own: the outputs the last step drove, in order (R48, notes/assumptions/7.md). -/
  out : List Output
  /-- Model's own: how many free values have been drawn (notes/assumptions/10.md). -/
  freeCount : Nat
deriving DecidableEq, Repr

/-- The initial state of a run with the parameters c (R280, R281, R46). FCMD, FLEN, PIDX, PBUF and RB
have no reset value in the spec and hold 0 here (DESIGN CHOICE, notes/assumptions/9.md). -/
def State.resetWith (c : Config) : State where
  cfg := c
  frm := { fstate := .magic, midx := 0, fcmd := 0, flen := 0, pidx := 0, chkacc := c.chkInit }
  mem := { pbuf := List.replicate c.maxPayload 0, rb := List.replicate c.cap 0 }
  status := { halted := false, cause := .none }
  fault := none
  irq := { ie := false, pendEdge := false, pendTick := false }
  ct := { pulse := 0, live := 0, shadow := 1, tmode := .idle, reload := 0, finished := false }
  rbs := { cursor := BitVec.ofNat 8 (c.cap - 1), valid := 0, range := .low,
           cCursor := BitVec.ofNat 8 (c.cap - 1), cValid := 0 }
  snap := Snapshot.zero
  op := .idle
  moves := []
  picks := []
  out := []
  freeCount := 0

/-- The machine right after reset, with the reference parameters of R7 (DESIGN CHOICE,
notes/assumptions/1.md). -/
def State.reset : State := State.resetWith Config.reference

end Sys2Proof.Machine
end

