-- ==== Sys2Proof/WellFormed.lean ====
section
/-! DEFINITION. What a well-formed configuration is: the constraint column of spec/00_scope.md R7,
which a model must check (R8). Instructions need no check of their own: the types of their operands
(Syntax) are exactly the fields of their formats, and what can be ill-formed is a request word, which
Decode refuses by name. -/

namespace Sys2Proof

/-- 1 ≤ MAX_PAYLOAD ≤ 256 and 0 ≤ PMIN < MAX_PAYLOAD. -/
def Config.payloadOk (c : Config) : Bool :=
  decide (1 ≤ c.maxPayload ∧ c.maxPayload ≤ 256 ∧ c.pmin < c.maxPayload)

/-- CHK_INIT is a CW-bit value. -/
def Config.checksumOk (c : Config) : Bool := decide (c.chkInit < 2 ^ c.cw)

/-- A counter width is a multiple of 8 from 8 to 32. -/
def Config.widthOk (w : Nat) : Bool := decide (8 ≤ w ∧ w ≤ 32 ∧ w % 8 = 0)

/-- 1 ≤ CAP ≤ 255, 1 ≤ SHORT ≤ CAP and SHORT ≤ W_HIGH ≤ CAP. -/
def Config.ringOk (c : Config) : Bool :=
  decide (1 ≤ c.cap ∧ c.cap ≤ 255 ∧ 1 ≤ c.short ∧ c.short ≤ c.cap ∧ c.short ≤ c.wHigh ∧
    c.wHigh ≤ c.cap)

/-- T_DOWN < T_UP < 2^32. -/
def Config.thresholdsOk (c : Config) : Bool := decide (c.tDown < c.tUp ∧ c.tUp < 2 ^ 32)

/-- 1 ≤ K < 2^32, and K2, EXC_MULT, EXC_SCALE and DRIFT_C are below 2^32. -/
def Config.scalesOk (c : Config) : Bool :=
  decide (1 ≤ c.k ∧ c.k < 2 ^ 32 ∧ c.k2 < 2 ^ 32 ∧ c.excMult < 2 ^ 32 ∧ c.excScale < 2 ^ 32 ∧
    c.driftC < 2 ^ 32)

/-- Every constraint of R7 holds (R8). -/
def Config.wf (c : Config) : Bool :=
  c.payloadOk && c.checksumOk && Config.widthOk c.pcw && Config.widthOk c.tw && c.ringOk &&
    c.thresholdsOk && c.scalesOk

end Sys2Proof
end

