-- ==== Sys2Proof/Machine/Ops.lean ====
section
/-! DEFINITION. The named operations over registers, buffers and outputs that every meaning is written
with: one update per unit of State, outputs, model faults, the fatal restart, critical sections,
handler entry and return, byte-wise reads, the push, the checksum, and the RESET event. -/

namespace Sys2Proof.Machine

open Sys2Proof

/-- The outcome of a step of the block. -/
abbrev Result := Host.Outcome State Fault Refusal

/-! ### One update per field of State -/

def State.withFrm (s : State) (x : Framing) : State := { s with frm := x }
def State.withMem (s : State) (x : Memory) : State := { s with mem := x }
def State.withStatus (s : State) (x : Status) : State := { s with status := x }
def State.withFault (s : State) (x : Option FaultRecord) : State := { s with fault := x }
def State.withIrq (s : State) (x : IrqCtl) : State := { s with irq := x }
def State.withCt (s : State) (x : CounterTimer) : State := { s with ct := x }
def State.withRbs (s : State) (x : RingStats) : State := { s with rbs := x }
def State.withSnap (s : State) (x : Snapshot) : State := { s with snap := x }
def State.withOp (s : State) (x : OpState) : State := { s with op := x }
def State.withMoves (s : State) (x : List Move) : State := { s with moves := x }
def State.withPicks (s : State) (x : List Nat) : State := { s with picks := x }
def State.withOut (s : State) (x : List Output) : State := { s with out := x }
def State.withFreeCount (s : State) (x : Nat) : State := { s with freeCount := x }

/-! ### Outputs (R48) -/

/-- Send one output, after those this step has sent already. -/
def State.emit (s : State) (o : Output) : State := s.withOut (s.out ++ [o])

/-- Drive the result bus RES. -/
def State.driveRes (s : State) (v : Word) : State := s.emit (.res v)

/-! ### Errors (R250 to R253) -/

/-- `raise Fault(code)` (R251, R255): the step writes FAULT and nothing else. -/
def raiseFault (code : FaultCode) (origin : Origin) (s : State) : Result :=
  .next (s.withFault (some ⟨code, origin⟩))

/-- `restart(cause)` (R250): emit RESTART, record the cause, halt. -/
def State.restart (s : State) (cause : RestartCause) : State :=
  (s.emit (.restart cause)).withStatus { halted := true, cause := cause }

/-- Emit DIAG(cause), then restart(cause) (R253). -/
def State.diagnoseAndRestart (s : State) (cause : RestartCause) : State :=
  (s.emit (.diag cause)).restart cause

/-! ### The interrupt enable, critical sections and handlers (R65, R153, R258, R259) -/

/-- `IE <- b`. -/
def State.setIe (s : State) (b : Bool) : State := s.withIrq { s.irq with ie := b }

/-- An internal critical section (R65): save IE, clear it, do the access, restore IE. -/
def critical (access : State → State) (s : State) : State :=
  (access (s.setIe false)).setIe s.irq.ie

/-- Taking an interrupt (R153, R258): entry saves nothing, changes no mode and fetches no vector; it
clears IE for the duration of the body. -/
def enterHandler (s : State) : State := s.setIe false

/-- The return from a handler (R153, R259): IE goes back to 1. -/
def returnFromHandler (s : State) : State := s.setIe true

/-! ### Byte-wise main-loop reads (R9, R64) -/

/-- Byte k of a value: its bits 8k+7 down to 8k (R9). -/
def byteOf (v k : Nat) : Nat := v / 256 ^ k % 256

/-- A read of a width-bit value that has read no byte yet. -/
def ByteAcc.start (width : Nat) : ByteAcc := { left := List.range (width / 8), value := 0 }

/-- The byte that the choice `pick` selects among those left. Every byte left is selected by some
choice, so every order of the bytes is some list of choices (R64). -/
def ByteAcc.choose (a : ByteAcc) (pick : Nat) : Nat := a.left.getD (pick % a.left.length) 0

/-- One `ByteRead` of v (R64): the byte chosen by `pick` is read and put in its place. -/
def ByteAcc.read (a : ByteAcc) (v pick : Nat) : ByteAcc where
  left := a.left.erase (a.choose pick)
  value := a.value + byteOf v (a.choose pick) * 256 ^ a.choose pick

/-- The choice that the next byte read uses: the first one listed, 0 where none is. -/
def State.pick (s : State) : Nat := s.picks.headD 0

/-- The state after a byte read has used its choice. -/
def State.usePick (s : State) : State := s.withPicks s.picks.tail

/-! ### Buffers (R60, R61, R200) -/

/-- PBUF[i]. -/
def Memory.payloadByte (m : Memory) (i : Nat) : Byte := m.pbuf.getD i 0

/-- RB[i]. -/
def Memory.ringEntry (m : Memory) (i : Nat) : Nat := m.rb.getD i 0

/-- `PBUF[i] <- b` (R125). -/
def Memory.storePayload (m : Memory) (i : Nat) (b : Byte) : Memory := { m with pbuf := m.pbuf.set i b }

/-- `RB[i] <- count` (R200). -/
def Memory.storeRing (m : Memory) (i count : Nat) : Memory := { m with rb := m.rb.set i count }

/-- The canonical form of the two buffers: PBUF has MAX_PAYLOAD bytes, RB has CAP entries, and every
entry is a PCW-bit value (R60). A buffer is its list of elements, so equal buffers are equal data. -/
abbrev Memory.wf (c : Config) (m : Memory) : Prop :=
  m.pbuf.length = c.maxPayload ∧ m.rb.length = c.cap ∧ ∀ e ∈ m.rb, e < 2 ^ c.pcw

/-- The slot of entry i of a backward traversal from `cursor` (R205), 0 the most recent. -/
def ringSlot (c : Config) (cursor i : Nat) : Nat := (cursor + c.cap - i) % c.cap

/-- `push(count)` (R200): advance the cursor, write the slot it now points at, saturate VALID. -/
def push (count : Nat) (s : State) : State :=
  let cursor := (s.rbs.cursor.toNat + 1) % s.cfg.cap
  (s.withMem (s.mem.storeRing cursor count)).withRbs
    { s.rbs with
      cursor := BitVec.ofNat 8 cursor
      valid := BitVec.ofNat 8 (min (s.rbs.valid.toNat + 1) s.cfg.cap) }

/-! ### The checksum functions (R7, R121) -/

/-- CHK_UPD(a, b), a CW-bit value. -/
def chkUpd (c : Config) (a : Nat) (b : Byte) : Nat :=
  match c.chkUpd with
  | .sum => (a + b.toNat) % 2 ^ c.cw
  | .xor => (a ^^^ b.toNat) % 2 ^ c.cw
  | .other n => Config.chkUpdOther n a b % 2 ^ c.cw

/-- CHK_FIN(a), one byte. -/
def chkFin (c : Config) (a : Nat) : Byte :=
  match c.chkFin with
  | .low => BitVec.ofNat 8 a
  | .other n => Config.chkFinOther n a

/-- The accumulator after the bytes bs, from CHK_INIT (R121). -/
def chkOver (c : Config) (bs : List Byte) : Nat := bs.foldl (chkUpd c) c.chkInit

/-! ### Unspecified values (spec/93_implementation_defined.md section 1) -/

/-- len free bytes, the n-th drawn first. -/
def freeBytes (n len : Nat) : List Byte := (List.range len).map fun i => Config.freeByte (n + i)

/-- len free ring entries of PCW bits, the n-th drawn first. -/
def freeEntries (c : Config) (n len : Nat) : List Nat :=
  (List.range len).map fun i => Config.freeEntry (n + i) % 2 ^ c.pcw

/-- PBUF becomes unspecified (R27, R127): every byte is a free value
(notes/assumptions/11.md). -/
def State.forgetPayload (s : State) : State :=
  (s.withMem { s.mem with pbuf := freeBytes s.freeCount s.cfg.maxPayload }).withFreeCount
    (s.freeCount + s.cfg.maxPayload)

/-- The RESET event (R280): every register of R46 takes its reset value and OPSTATE becomes idle. The
registers whose reset value is unspecified take free values (notes/assumptions/10.md). The
parameters, the schedule and the choices of the environment are not state of the block and stay. -/
def takeReset (s : State) : State :=
  let n := s.freeCount
  let r := State.resetWith s.cfg
  { r with
    frm := { r.frm with
      fcmd := Config.freeByte n
      flen := Config.freeByte (n + 1)
      pidx := Config.freeByte (n + 2) }
    mem := { pbuf := freeBytes (n + 3) s.cfg.maxPayload, rb := freeEntries s.cfg n s.cfg.cap }
    fault := s.fault
    moves := s.moves
    picks := s.picks
    out := s.out
    freeCount := n + 3 + s.cfg.maxPayload + s.cfg.cap }

end Sys2Proof.Machine
end

