-- ==== Sys2Proof/Machine/Operands.lean ====
section
/-! DEFINITION. Operands and results as values (spec/30_encoding.md R83, R87), the ranges the operations
check, the origin of a fault, and the encodings of the named register values. -/

namespace Sys2Proof.Machine

open Sys2Proof

/-- `zext_32` of a value (spec/00_scope.md R11). -/
def zext32 (v : Nat) : Word := BitVec.ofNat 32 v

/-- The origin of a fault raised by an operation: its request word (R251). -/
def originOf (i : Instr) : Origin := .request (encode i)

/-- `absdiff(a, b)` (R10). -/
def absdiff (a b : Nat) : Nat := max a b - min a b

/-- The encoding of FSTATE (R22). -/
def FState.code : FState → BitVec 3
  | .magic => 0
  | .command => 1
  | .length => 2
  | .payload => 3
  | .checksum => 4

/-- The encoding of TMODE (R36). -/
def TMode.code : TMode → BitVec 2
  | .idle => 0
  | .total => 1
  | .interval => 2
  | .stopped => 3

/-- The encoding of RANGE (R42). -/
def Range.code : Range → BitVec 1
  | .low => 0
  | .high => 1

/-- The restart cause codes (R252). -/
def RestartCause.code : RestartCause → Byte
  | .none => 0
  | .badLength => 1
  | .badChecksum => 2

/-- The fault codes (R251). -/
def FaultCode.code : FaultCode → Nat
  | .illegalOp => 1
  | .overflow => 2
  | .armActive => 3
  | .armRange => 4
  | .badWindow => 5
  | .statsUnavailable => 6
  | .fmtRange => 7

/-- The timer mode that TMR_ARM's operand B[0] selects (R161). -/
def armedMode : ArmMode → TMode
  | .total => .total
  | .interval => .interval

/-- The countdown value of TMR_ARM fits: 1 ≤ V < 2^TW (R161). -/
def countdownFits (c : Config) (v : Word) : Bool := decide (1 ≤ v.toNat ∧ v.toNat < 2 ^ c.tw)

/-- The window of RB_STATS is good: SHORT ≤ W ≤ C_VALID (R206). -/
def windowFits (s : State) (w : Word) : Bool :=
  decide (s.cfg.short ≤ w.toNat ∧ w.toNat ≤ s.rbs.cValid.toNat)

/-- The operands of FMT are good: D in 1..6, P in 0..6, P < D and v < 10^D (R104). -/
def fmtFits (v : Word) (p d : Byte) : Bool :=
  decide (1 ≤ d.toNat ∧ d.toNat ≤ 6 ∧ p.toNat ≤ 6 ∧ p.toNat < d.toNat ∧ v.toNat < 10 ^ d.toNat)

/-- The bytes of MAGIC (R7, R91). -/
def magicByte (c : Config) (i : BitVec 2) : Byte :=
  match i.toNat with
  | 0 => c.magic0
  | 1 => c.magic1
  | 2 => c.magic2
  | _ => c.magic3

end Sys2Proof.Machine
end

