-- ==== Sys2Proof/Machine/Flags.lean ====
section
/-! DEFINITION. The block's single-bit status values (spec/10_state.md R47) as results and as conditions,
and the SNAP_READ selector (spec/30_encoding.md R87). There are no arithmetic condition codes (R47). -/

namespace Sys2Proof.Machine

open Sys2Proof

/-- A one-bit value on the result bus. -/
def flagWord (b : Bool) : Word := if b then 1 else 0

/-- A tick becomes pending only while the timer runs: TMODE is TOTAL or INTERVAL (R151). -/
def TMode.running : TMode → Bool
  | .total => true
  | .interval => true
  | .idle => false
  | .stopped => false

/-- The edge handler may start: IE = 1 and PEND_EDGE = 1 (R152). HALTED and FAULT are checked for
every agent alike, where the move is taken. -/
def State.edgeHandlerEnabled (s : State) : Bool := s.irq.ie && s.irq.pendEdge

/-- The tick handler may start: IE = 1 and PEND_TICK = 1 (R152). -/
def State.tickHandlerEnabled (s : State) : Bool := s.irq.ie && s.irq.pendTick

/-- Statistics are available: C_VALID ≥ SHORT (R204). -/
def State.statsAvailable (s : State) : Bool := decide (s.cfg.short ≤ s.rbs.cValid.toNat)

/-- The register that a SNAP_READ selector names, zero-extended to 32 bits; none above 12 (R87). -/
def State.snapRegister (s : State) (sel : Byte) : Option Word :=
  match sel.toNat with
  | 0 => some (flagWord s.snap.avail)
  | 1 => some (zext32 s.snap.window.toNat)
  | 2 => some s.snap.total
  | 3 => some s.snap.newer
  | 4 => some s.snap.older
  | 5 => some s.snap.short
  | 6 => some s.snap.rlong
  | 7 => some s.snap.rshort
  | 8 => some s.snap.tol
  | 9 => some (flagWord s.snap.tolv)
  | 10 => some (zext32 s.rbs.range.code.toNat)
  | 11 => some (zext32 s.rbs.cCursor.toNat)
  | 12 => some (zext32 s.rbs.cValid.toNat)
  | _ => none

end Sys2Proof.Machine
end

