-- ==== Sys2Proof/Machine/CounterTimer.lean ====
section
/-! DEFINITION. The counter/timer unit (spec/42_counter_timer.md): the edge handler (R158), the tick handler
(R162 to R165), and the operations CNT_READ, CNT_READ_RESET, TMR_ARM, TMR_READ_FINISHED and
TMR_READ_SYNC (R159 to R161, R166, R167). -/

namespace Sys2Proof.Machine

open Sys2Proof

/-! ### Handlers -/

/-- The writes of the edge handler body, in order (R158). -/
def edgeBody (s : State) : State :=
  let counted := (s.withCt { s.ct with pulse := s.ct.pulse + 1 }).emit .edgeFeedback
  counted.withIrq { counted.irq with pendEdge := false }

/-- The edge handler step (R153, R158): OVERFLOW at PULSE = 2^PCW - 1, else the body. -/
def edgeHandler (s : State) : Result :=
  if s.ct.pulse = 2 ^ s.cfg.pcw - 1 then raiseFault .overflow .edgeHandler s
  else .next (returnFromHandler (edgeBody (enterHandler s)))

/-- The common part of the tick handler (R162): SHADOW takes LIVE, then LIVE is decremented. The
decrement is that of a TW-bit register; LIVE = 0 cannot occur here (notes/assumptions/13.md). -/
def countDown (s : State) : State :=
  s.withCt { s.ct with
    shadow := s.ct.live
    live := (s.ct.live + 2 ^ s.cfg.tw - 1) % 2 ^ s.cfg.tw }

/-- The rotation (R163): push PULSE, zero it, rearm with the shadow first. -/
def rotate (s : State) : State :=
  (push s.ct.pulse s).withCt { s.ct with
    pulse := 0
    shadow := (s.ct.reload + 1) % 2 ^ s.cfg.tw
    live := s.ct.reload }

/-- The end of a TOTAL measurement (R164). -/
def finish (s : State) : State :=
  (s.withCt { s.ct with finished := true, tmode := .stopped }).emit .finishedEvent

/-- The tick handler body (R162 to R165). -/
def tickBody (s : State) : State :=
  let s0 := s.withIrq { s.irq with pendTick := false }
  match s0.ct.tmode with
  | .idle => s0
  | .stopped => s0
  | .total => let s1 := countDown s0; if s1.ct.live = 0 then finish s1 else s1
  | .interval => let s1 := countDown s0; if s1.ct.live = 0 then rotate s1 else s1

/-- The tick handler step (R153, R162 to R165). -/
def tickHandler (s : State) : Result := .next (returnFromHandler (tickBody (enterHandler s)))

/-! ### Pulse counter -/

/-- CNT_READ (R159). -/
def execCntRead (s : State) : Result :=
  .next (critical (fun t => t.driveRes (zext32 t.ct.pulse)) s)

/-- CNT_READ_RESET (R160). -/
def execCntReadReset (s : State) : Result :=
  .next (critical (fun t => (t.driveRes (zext32 t.ct.pulse)).withCt { t.ct with pulse := 0 }) s)

/-! ### Countdown timer -/

/-- TMR_ARM mode, V (R161): ARM_ACTIVE is checked before ARM_RANGE (R255). -/
def execTmrArm (mode : ArmMode) (v : Word) (s : State) : Result :=
  if s.ct.tmode ≠ .idle then raiseFault .armActive (originOf (.tmrArm mode v)) s
  else if countdownFits s.cfg v then
    .next ((s.withCt { s.ct with
      shadow := (v.toNat + 1) % 2 ^ s.cfg.tw
      live := v.toNat
      reload := v.toNat
      tmode := armedMode mode
      finished := false }).withIrq { s.irq with pendTick := false })
  else raiseFault .armRange (originOf (.tmrArm mode v)) s

/-- TMR_READ_FINISHED (R166). -/
def execTmrReadFinished (s : State) : Result := .next (s.driveRes (flagWord s.ct.finished))

/-- The position at the start of an attempt of TMR_READ_SYNC (R167): no byte read yet. -/
def syncAttemptStart (c : Config) : OpState := .tmrReadSync (.start c.tw) (.start c.tw)

/-- The test that ends an attempt, from the assembled values l and s (R167):
`(s - l) mod 2^TW == 1`. -/
def syncConsistent (c : Config) (l sh : Nat) : Bool := decide ((sh + 2 ^ c.tw - l) % 2 ^ c.tw = 1)

/-- One micro-step of TMR_READ_SYNC (R167): the next byte of LIVE, or of SHADOW once all of LIVE is
read; the last byte of SHADOW decides the attempt. -/
def syncStep (l sh : ByteAcc) (s : State) : Result :=
  if l.left.isEmpty then
    let sh' := sh.read s.ct.shadow s.pick
    if sh'.left.isEmpty then
      if syncConsistent s.cfg l.value sh'.value then
        .next ((s.usePick.withOp .idle).driveRes (zext32 l.value))
      else .next (s.usePick.withOp (syncAttemptStart s.cfg))
    else .next (s.usePick.withOp (.tmrReadSync l sh'))
  else .next (s.usePick.withOp (.tmrReadSync (l.read s.ct.live s.pick) sh))

/-- TMR_READ_SYNC (R167): the accepting step is the first micro-step of the first attempt
(notes/assumptions/14.md). -/
def execTmrReadSync (s : State) : Result := syncStep (.start s.cfg.tw) (.start s.cfg.tw) s

end Sys2Proof.Machine
end

