-- ==== Sys2Proof/Machine/Framing.lean ====
section
/-! DEFINITION. The framing unit (spec/41_framing.md): FRM_BYTE with one transition function per state
(R122 to R126), and the layout of a frame on the wire (spec/30_encoding.md R88). -/

namespace Sys2Proof.Machine

open Sys2Proof

/-- State MAGIC (R122): match, or resynchronize silently. -/
def frmMagic (b : Byte) (s : State) : Result :=
  if b = magicByte s.cfg s.frm.midx then
    if s.frm.midx = 3 then
      .next (s.withFrm { s.frm with midx := 0, fstate := .command })
    else
      .next (s.withFrm { s.frm with midx := s.frm.midx + 1 })
  else
    .next (s.withFrm { s.frm with
      midx := if s.cfg.magicRetest ∧ b = s.cfg.magic0 then 1 else 0
      chkacc := s.cfg.chkInit })

/-- State COMMAND (R123). -/
def frmCommand (b : Byte) (s : State) : Result :=
  .next (s.withFrm { s.frm with
    fcmd := b
    chkacc := chkUpd s.cfg s.frm.chkacc b
    fstate := .length })

/-- State LENGTH (R124): the range check first, then the zero test (C2). -/
def frmLength (b : Byte) (s : State) : Result :=
  let acc := chkUpd s.cfg s.frm.chkacc b
  if b.toNat < s.cfg.pmin ∨ s.cfg.maxPayload ≤ b.toNat then
    .next ((s.withFrm { s.frm with flen := b, chkacc := acc }).diagnoseAndRestart .badLength)
  else if b = 0 then
    .next (s.withFrm { s.frm with flen := b, chkacc := acc, fstate := .checksum })
  else
    .next (s.withFrm { s.frm with flen := b, chkacc := acc, pidx := 0, fstate := .payload })

/-- State PAYLOAD (R125). A PIDX outside PBUF cannot occur (R61) and faults
(notes/assumptions/12.md). -/
def frmPayload (b : Byte) (s : State) : Result :=
  if s.frm.pidx.toNat < s.cfg.maxPayload then
    .next ((s.withMem (s.mem.storePayload s.frm.pidx.toNat b)).withFrm { s.frm with
      chkacc := chkUpd s.cfg s.frm.chkacc b
      pidx := s.frm.pidx + 1
      fstate := if s.frm.pidx + 1 = s.frm.flen then .checksum else .payload })
  else .fault .pbufIndex

/-- State CHECKSUM (R126, R127): dispatch a copy of the payload and forget PBUF, or restart. An FLEN
beyond PBUF cannot occur (R61) and faults (notes/assumptions/12.md). -/
def frmChecksum (b : Byte) (s : State) : Result :=
  if b = chkFin s.cfg s.frm.chkacc then
    if s.frm.flen.toNat ≤ s.cfg.maxPayload then
      .next (((s.emit (.dispatch s.frm.fcmd s.frm.flen (s.mem.pbuf.take s.frm.flen.toNat))).withFrm
        { s.frm with fstate := .magic, midx := 0, chkacc := s.cfg.chkInit }).forgetPayload)
    else .fault .pbufIndex
  else .next (s.diagnoseAndRestart .badChecksum)

/-- FRM_BYTE b (R120): one transition function per state. -/
def execFrmByte (b : Byte) (s : State) : Result :=
  match s.frm.fstate with
  | .magic => frmMagic b s
  | .command => frmCommand b s
  | .length => frmLength b s
  | .payload => frmPayload b s
  | .checksum => frmChecksum b s

/-- The bytes a checksum covers: command, length, payload (R88, R121). -/
def coveredBytes (cmd : Byte) (payload : List Byte) : List Byte :=
  cmd :: BitVec.ofNat 8 payload.length :: payload

/-- A frame on the wire (R88): magic, command, length, payload, checksum. -/
def wireFrame (c : Config) (cmd : Byte) (payload : List Byte) : List Byte :=
  [c.magic0, c.magic1, c.magic2, c.magic3] ++ coveredBytes cmd payload ++
    [chkFin c (chkOver c (coveredBytes cmd payload))]

end Sys2Proof.Machine
end

