-- ==== Sys2Proof/Machine/IntMath.lean ====
section
/-! DEFINITION. The integer math unit (spec/40_integer_math.md): the bit-trial square root, the fixed-point
formatter, and the operations ISQRT and FMT. -/

namespace Sys2Proof.Machine

open Sys2Proof

/-! ### Integer square root (R100) -/

/-- One stage of the datapath: the trial r + 2^b is accepted when its square is at most q. -/
def isqrtStage (q b r : Nat) : Nat := if (r + 2 ^ b) * (r + 2 ^ b) ≤ q then r + 2 ^ b else r

/-- The stages for bits n-1 down to 0, from the candidate r. -/
def isqrtStages (q : Nat) : Nat → Nat → Nat
  | 0, r => r
  | n + 1, r => isqrtStages q n (isqrtStage q n r)

/-- `isqrt(q)`: 16 stages from 0, bit 15 first (R100). -/
def isqrt (q : Nat) : Nat := isqrtStages q 16 0

/-- ISQRT q (R101). -/
def execIsqrt (q : Word) (s : State) : Result := .next (s.driveRes (zext32 (isqrt q.toNat)))

/-! ### Fixed-point decimal formatting (R103 to R105) -/

/-- ASCII space (R105). -/
def asciiSpace : Byte := 0x20

/-- ASCII point (R105). -/
def asciiPoint : Byte := 0x2E

/-- ASCII digit d (R105). -/
def asciiDigit (d : Nat) : Byte := BitVec.ofNat 8 (0x30 + d)

/-- `digit(j) = (v div 10^j) mod 10` (R103). -/
def decimalDigit (v j : Nat) : Nat := v / 10 ^ j % 10

/-- `ch(j)`: a space for a leading insignificant position left of the ones digit, else the digit
(R103). -/
def fmtChar (v p j : Nat) : Byte :=
  if p < j ∧ v < 10 ^ j then asciiSpace else asciiDigit (decimalDigit v j)

/-- The characters of positions j-1 down to 0; the point stands right after the ones digit, position
P, when P ≥ 1 (R103). -/
def fmtFrom (v p : Nat) : Nat → List Byte
  | 0 => []
  | j + 1 =>
    fmtChar v p j :: (if j = p ∧ 1 ≤ p then asciiPoint :: fmtFrom v p j else fmtFrom v p j)

/-- `fmt(v, P, D)` (R103), leftmost character first and no terminator (R105). -/
def fmtString (v p d : Nat) : List Byte := fmtFrom v p d

/-- FMT value, pos, count (R104). -/
def execFmt (value : Word) (pos count : Byte) (s : State) : Result :=
  if fmtFits value pos count then
    .next (s.emit (.str (fmtString value.toNat pos.toNat count.toNat)))
  else raiseFault .fmtRange (originOf (.fmt value pos count)) s

end Sys2Proof.Machine
end

