-- ==== Sys2Proof/Machine/Interrupts.lean ====
section
/-! DEFINITION. Interrupt control (spec/42_counter_timer.md): the EDGE and TICK events (R150, R151) and the
operations IRQ_DISABLE, IRQ_ENABLE, IRQ_SAVE_DISABLE and IRQ_RESTORE (R154 to R157). -/

namespace Sys2Proof.Machine

open Sys2Proof

/-- The EDGE event (R150): PEND_EDGE is set; a second edge is absorbed. -/
def deliverEdge (s : State) : State := s.withIrq { s.irq with pendEdge := true }

/-- The TICK event (R151): PEND_TICK is set while the timer runs; else the tick has no effect. -/
def deliverTick (s : State) : State :=
  if s.ct.tmode.running then s.withIrq { s.irq with pendTick := true } else s

/-- IRQ_DISABLE (R154). -/
def execIrqDisable (s : State) : Result := .next (s.setIe false)

/-- IRQ_ENABLE (R155). -/
def execIrqEnable (s : State) : Result := .next (s.setIe true)

/-- IRQ_SAVE_DISABLE (R156). -/
def execIrqSaveDisable (s : State) : Result := .next ((s.driveRes (flagWord s.irq.ie)).setIe false)

/-- IRQ_RESTORE b (R157). -/
def execIrqRestore (saved : Bool) (s : State) : Result := .next (s.setIe saved)

end Sys2Proof.Machine
end

