-- ==== Sys2Proof/Machine/RingStats.lean ====
section
/-! DEFINITION. The ring-buffer statistics unit (spec/43_ringbuffer_stats.md): RB_COPY, RB_SELECT, RB_STATS
with its traversal, RB_EXCURSION, RB_DRIFT, RB_SHRINK and SNAP_READ (R201 to R211). -/

namespace Sys2Proof.Machine

open Sys2Proof

/-- RB_COPY (R201). -/
def execRbCopy (s : State) : Result :=
  .next (critical (fun t => t.withRbs
    { t.rbs with cCursor := t.rbs.cursor, cValid := t.rbs.valid }) s)

/-- `next_range(r, x)` (R202), with strict comparisons. -/
def nextRange (c : Config) (r : Range) (x : Nat) : Range :=
  match r with
  | .low => if c.tUp < x then .high else .low
  | .high => if x < c.tDown then .low else .high

/-- The window length of a range before it is capped (R203). -/
def baseWindow (c : Config) : Range → Nat
  | .low => c.cap
  | .high => c.wHigh

/-- RB_SELECT rate (R203): the range first, then the window of the new range. -/
def execRbSelect (rate : Word) (s : State) : Result :=
  let range := nextRange s.cfg s.rbs.range rate.toNat
  .next ((s.withRbs { s.rbs with range := range }).driveRes
    (zext32 (min (baseWindow s.cfg range) s.rbs.cValid.toNat)))

/-! ### RB_STATS (R204 to R207) -/

/-- The traversal before its first entry (R205). -/
def Traversal.start (c : Config) (window : Word) : Traversal where
  window := window
  i := 0
  entry := .start c.pcw
  total := 0
  newer := 0
  short := 0

/-- Entry i, with value e, joins the running total and its checkpoints (R205). -/
def Traversal.addEntry (c : Config) (t : Traversal) (e : Nat) : Traversal where
  window := t.window
  i := t.i + 1
  entry := .start c.pcw
  total := t.total + e
  newer := if t.i + 1 = t.window.toNat / 2 then t.total + e else t.newer
  short := if t.i + 1 = c.short then t.total + e else t.short

/-- One byte of entry i is read; the last one completes the entry (R205). -/
def Traversal.readByte (c : Config) (ringEntry pick : Nat) (t : Traversal) : Traversal :=
  let e := t.entry.read ringEntry pick
  if e.left.isEmpty then t.addEntry c e.value else { t with entry := e }

/-- The tolerance of R207: 0 and undefined at total = 0. -/
def tolerance (c : Config) (total : Nat) : Nat := if total = 0 then 0 else c.k2 / isqrt total

/-- The snapshot of R206 and R207 from the sums; none where the total or a rate does not fit in 32
bits (OVERFLOW). -/
def computeSnapshot (c : Config) (window total newer short : Nat) : Option Snapshot :=
  let rlong := c.k * total / window
  let rshort := c.k * short / c.short
  if 2 ^ 32 ≤ total ∨ 2 ^ 32 ≤ rlong ∨ 2 ^ 32 ≤ rshort then none
  else some {
    avail := true
    window := BitVec.ofNat 8 window
    total := zext32 total
    newer := zext32 newer
    older := zext32 (total - newer)
    short := zext32 short
    rlong := zext32 rlong
    rshort := zext32 rshort
    tol := zext32 (tolerance c total)
    tolv := decide (total ≠ 0) }

/-- The last micro-step of RB_STATS (R206): write the snapshot, or raise OVERFLOW. -/
def statsFinish (t : Traversal) (s : State) : Result :=
  match computeSnapshot s.cfg t.window.toNat t.total t.newer t.short with
  | some snap => .next (((s.withSnap snap).withOp .idle).driveRes 1)
  | none => raiseFault .overflow (originOf (.rbStats t.window)) s

/-- One micro-step of RB_STATS after the first (R206): a byte of the current entry while entries are
left, then the last micro-step (notes/assumptions/14.md). -/
def statsStep (t : Traversal) (s : State) : Result :=
  if t.i < t.window.toNat then
    .next (s.usePick.withOp (.rbStats
      (t.readByte s.cfg (s.mem.ringEntry (ringSlot s.cfg s.rbs.cCursor.toNat t.i)) s.pick)))
  else statsFinish t s

/-- RB_STATS window (R206): the first micro-step checks the operands. Unavailable statistics end it
in this one step (R204), before the window is checked (R255). -/
def execRbStats (window : Word) (s : State) : Result :=
  if s.statsAvailable then
    if windowFits s window then .next (s.withOp (.rbStats (.start s.cfg window)))
    else raiseFault .badWindow (originOf (.rbStats window)) s
  else .next ((s.withSnap .zero).driveRes 0)

/-! ### The tests, the shrink and the snapshot read -/

/-- The excursion test's comparison (R208); every product is exact. -/
def excursionFires (c : Config) (rlong rshort : Nat) : Bool :=
  decide (c.excMult * (rlong * c.excScale / c.short) < absdiff rlong rshort * absdiff rlong rshort)

/-- The drift test's comparison (R209); every product is exact. -/
def driftFires (c : Config) (newer older : Nat) : Bool :=
  decide (c.driftC * (newer + older) < absdiff newer older * absdiff newer older)

/-- RB_EXCURSION (R208). -/
def execRbExcursion (s : State) : Result :=
  if s.snap.avail then
    .next (s.driveRes (flagWord (excursionFires s.cfg s.snap.rlong.toNat s.snap.rshort.toNat)))
  else raiseFault .statsUnavailable (originOf .rbExcursion) s

/-- RB_DRIFT (R209). -/
def execRbDrift (s : State) : Result :=
  if s.snap.avail then
    .next (s.driveRes (flagWord (driftFires s.cfg s.snap.newer.toNat s.snap.older.toNat)))
  else raiseFault .statsUnavailable (originOf .rbDrift) s

/-- RB_SHRINK (R210). -/
def execRbShrink (s : State) : Result :=
  .next (critical (fun t => t.withRbs
    { t.rbs with valid := BitVec.ofNat 8 (min t.rbs.valid.toNat t.cfg.short) }) s)

/-- SNAP_READ sel (R211). -/
def execSnapRead (sel : Byte) (s : State) : Result :=
  match s.snapRegister sel with
  | some v => .next (s.driveRes v)
  | none => raiseFault .illegalOp (originOf (.snapRead sel)) s

end Sys2Proof.Machine
end

