-- ==== Sys2Proof/Machine/Dispatch.lean ====
section
/-! DEFINITION. exec: one arm per operation, each one direct call of its meaning. For the two multi-step
operations, TMR_READ_SYNC and RB_STATS, the meaning is the accepting step, their first micro-step; the
later ones are in Port. -/

namespace Sys2Proof.Machine

open Sys2Proof

def exec (i : Instr) (s : State) : Host.Outcome State Fault Refusal :=
  match i with
  | .frmByte b => Sys2Proof.Machine.execFrmByte b s
  | .irqDisable => Sys2Proof.Machine.execIrqDisable s
  | .irqEnable => Sys2Proof.Machine.execIrqEnable s
  | .irqSaveDisable => Sys2Proof.Machine.execIrqSaveDisable s
  | .irqRestore saved => Sys2Proof.Machine.execIrqRestore saved s
  | .cntRead => Sys2Proof.Machine.execCntRead s
  | .cntReadReset => Sys2Proof.Machine.execCntReadReset s
  | .tmrArm mode v => Sys2Proof.Machine.execTmrArm mode v s
  | .tmrReadSync => Sys2Proof.Machine.execTmrReadSync s
  | .tmrReadFinished => Sys2Proof.Machine.execTmrReadFinished s
  | .rbCopy => Sys2Proof.Machine.execRbCopy s
  | .rbSelect rate => Sys2Proof.Machine.execRbSelect rate s
  | .rbStats window => Sys2Proof.Machine.execRbStats window s
  | .rbExcursion => Sys2Proof.Machine.execRbExcursion s
  | .rbDrift => Sys2Proof.Machine.execRbDrift s
  | .rbShrink => Sys2Proof.Machine.execRbShrink s
  | .snapRead sel => Sys2Proof.Machine.execSnapRead sel s
  | .isqrt q => Sys2Proof.Machine.execIsqrt q s
  | .fmt value pos count => Sys2Proof.Machine.execFmt value pos count s

end Sys2Proof.Machine
end

