-- ==== Sys2Proof/Machine/Port.lean ====
section
/-! DEFINITION. One turn of one agent: the operation port (spec/30_encoding.md R80), the micro-steps of a
multi-step operation (spec/10_state.md R45), the start of a handler (spec/42_counter_timer.md R152),
the events of the environment, and the rules that stop every agent: HALTED (spec/60_exceptions.md R250)
and FAULT (R251). A move whose agent has no step enabled has no effect (notes/assumptions/3.md). -/

namespace Sys2Proof.Machine

open Sys2Proof

/-- The main loop presents a request word. The port accepts it only while OPSTATE is idle (R45, R80);
a word that matches no row of the opcode map raises ILLEGAL_OP (R85). -/
def present (w : Request) (s : State) : Result :=
  match s.op with
  | .idle =>
    match decode w with
    | .instr i => exec i s
    | .illegal _ => raiseFault .illegalOp (.request w) s
  | .tmrReadSync _ _ => .next s
  | .rbStats _ => .next s

/-- The next micro-step of the operation in progress (R45); none where the port is idle. -/
def microStep (s : State) : Result :=
  match s.op with
  | .idle => .next s
  | .tmrReadSync l sh => syncStep l sh s
  | .rbStats t => statsStep t s

/-- The turn of an agent other than the reset line, in a block that is not halted. -/
def takeTurn (m : Move) (s : State) : Result :=
  match m with
  | .request w => present w s
  | .micro => microStep s
  | .edgeIsr => if s.edgeHandlerEnabled then edgeHandler s else .next s
  | .tickIsr => if s.tickHandlerEnabled then tickHandler s else .next s
  | .edge => .next (deliverEdge s)
  | .tick => .next (deliverTick s)
  | .reset => .next (takeReset s)

/-- A move. RESET is taken whether or not the block is halted (R280); while HALTED = 1 no other agent
has a step, no request is accepted and no event has an effect (R250). -/
def runMove (m : Move) (s : State) : Result :=
  if m = .reset then .next (takeReset s)
  else if s.status.halted then .next s
  else takeTurn m s

/-- The state a move starts from: the schedule without it, and no output driven yet, because an output
is not held after its step (R48). -/
def State.beginMove (s : State) (rest : List Move) : State := (s.withMoves rest).withOut []

/-- One step. A configuration that breaks R7 is refused (R8), a state with FAULT set has no step
(R251), and with nothing scheduled no agent steps (notes/assumptions/5.md). -/
def stepBlock (s : State) : Result :=
  if s.cfg.wf then
    match s.fault with
    | some r => .fault (.modelFault r)
    | none =>
      match s.moves with
      | [] => .next (s.withOut [])
      | m :: rest => runMove m (s.beginMove rest)
  else .refused .badConfig

end Sys2Proof.Machine
end

