-- ==== Sys2Proof/Machine/Step.lean ====
section
/-! DEFINITION. The step of the machine, and how the host presents one request to it. -/

namespace Sys2Proof.Machine

open Sys2Proof

/-- One step of the block (Port holds its parts). -/
def step (s : State) : Host.Outcome State Fault Refusal := stepBlock s

/-- s with the request word w presented next on the operation port. The block fetches no
instructions (spec/10_state.md R21): the main loop presents them, and this stands for its next
request (notes/assumptions/4.md). -/
def State.withFetchWord (s : State) (_nbits w : Nat) : State :=
  s.withMoves (.request (BitVec.ofNat 64 w) :: s.moves)

end Sys2Proof.Machine
end

