-- ==== Sys2Proof/Machine/Program.lean ====
section
/-! DEFINITION. The program syntax of spec/30_encoding.md R93 and R94 as data: the mnemonics, the operands
in the order a line writes them, the lines with the moves each stands for, the two
pseudo-operations, and what the main loop composes (43_ringbuffer_stats R212, 42_counter_timer R170). -/

namespace Sys2Proof.Machine

open Sys2Proof

/-- The mnemonic of an operation (R84). -/
def mnemonicOf : Instr → String
  | .frmByte _ => "FRM_BYTE"
  | .irqDisable => "IRQ_DISABLE"
  | .irqEnable => "IRQ_ENABLE"
  | .irqSaveDisable => "IRQ_SAVE_DISABLE"
  | .irqRestore _ => "IRQ_RESTORE"
  | .cntRead => "CNT_READ"
  | .cntReadReset => "CNT_READ_RESET"
  | .tmrArm _ _ => "TMR_ARM"
  | .tmrReadSync => "TMR_READ_SYNC"
  | .tmrReadFinished => "TMR_READ_FINISHED"
  | .rbCopy => "RB_COPY"
  | .rbSelect _ => "RB_SELECT"
  | .rbStats _ => "RB_STATS"
  | .rbExcursion => "RB_EXCURSION"
  | .rbDrift => "RB_DRIFT"
  | .rbShrink => "RB_SHRINK"
  | .snapRead _ => "SNAP_READ"
  | .isqrt _ => "ISQRT"
  | .fmt _ _ _ => "FMT"

/-- The operands as a line writes them: in the order A, B, C of the fields the format reads, but for
TMR_ARM, whose line is `TMR_ARM mode, value` (R93). -/
def lineOperands : Instr → List Nat
  | .frmByte b => [b.toNat]
  | .irqRestore saved => [saved.toNat]
  | .tmrArm mode v => [(armModeToB mode).toNat, v.toNat]
  | .rbSelect rate => [rate.toNat]
  | .rbStats window => [window.toNat]
  | .snapRead sel => [sel.toNat]
  | .isqrt q => [q.toNat]
  | .fmt value pos count => [value.toNat, pos.toNat, count.toNat]
  | .irqDisable | .irqEnable | .irqSaveDisable | .cntRead | .cntReadReset | .tmrReadSync
  | .tmrReadFinished | .rbCopy | .rbExcursion | .rbDrift | .rbShrink => []

/-- A line of a program (R93). -/
inductive Line where
  /-- An operation; its encoding is the request word of R81. -/
  | op (i : Instr)
  /-- `@EDGE`. -/
  | edge
  /-- `@TICK`. -/
  | tick
  /-- `@RESET`. -/
  | reset
  /-- `@ISR`: the schedule lets a pending handler run. -/
  | isr
deriving DecidableEq, Repr

/-- The moves a line stands for. `@ISR` gives the turn to both handlers, of which only an enabled one
steps; the edge handler has it first (notes/assumptions/17.md). The micro-steps of a multi-step
operation are moves of their own, which a schedule places where it will. -/
def lineMoves : Line → List Move
  | .op i => [.request (encode i)]
  | .edge => [.edge]
  | .tick => [.tick]
  | .reset => [.reset]
  | .isr => [.edgeIsr, .tickIsr]

/-- The schedule of a program. -/
def programMoves (p : List Line) : List Move := p.flatMap lineMoves

/-- `FRM_BYTES b0, ..., bn` (R94). -/
def frmBytes (bs : List Byte) : List Line := bs.map fun b => .op (.frmByte b)

/-- A critical section over `body` (R94); `saved` is the result of its IRQ_SAVE_DISABLE. -/
def crit (saved : Bool) (body : List Line) : List Line :=
  .op .irqSaveDisable :: body ++ [.op (.irqRestore saved)]

/-- The statistics cycle (R212) in the order the main loop runs it: x is the rate estimate, w the result
of RB_SELECT, avail the result of RB_STATS, fires whether a test fired. -/
def statsCycle (x w : Word) (avail fires : Bool) : List Line :=
  [.op .rbCopy, .op (.rbSelect x), .op (.rbStats w)] ++
    if avail then
      [.op .rbExcursion, .op .rbDrift] ++ if fires then [.op .rbShrink] else []
    else []

/-- The ticks elapsed that the caller of TMR_ARM with the value v computes from a later result r of
TMR_READ_SYNC (42_counter_timer R170). No operation returns it. -/
def elapsedTicks (v r : Nat) : Nat := v - r

end Sys2Proof.Machine
end

