-- ==== Sys2Proof/Machine/Runs.lean ====
section
/-! DEFINITION. Runs of the block (spec/00_scope.md R12) and the two assumptions about them that the
spec names: the weak fairness of handler steps (spec/42_counter_timer.md R152) and TICK_SPARSE (R168).
A step makes neither; a claim about runs that needs one assumes it by name (notes/assumptions/16.md).
A run is a sequence of states σ and of the moves ms taken between them. -/

namespace Sys2Proof.Machine

open Sys2Proof

/-- The two interrupt handlers (R3, R256). -/
inductive Handler where
  | edge
  | tick
deriving DecidableEq, Repr

/-- The move in which a handler runs. -/
def Handler.move : Handler → Move
  | .edge => .edgeIsr
  | .tick => .tickIsr

/-- A handler has a step enabled: IE = 1, its pending flag is 1, HALTED = 0 and no fault is recorded
(R152). -/
abbrev Handler.enabled (h : Handler) (s : State) : Prop :=
  (match h with
    | .edge => s.edgeHandlerEnabled
    | .tick => s.tickHandlerEnabled) = true ∧ s.status.halted = false ∧ s.fault = none

/-- s with the move m as its whole schedule and the byte-order choices ps: what the environment offers
one step of a run. -/
def State.offer (s : State) (m : Move) (ps : List Nat) : State := (s.withMoves [m]).withPicks ps

/-- An unending run: each state is the next state of the one before it under the move offered, with any
byte-order choices (R12, R64). -/
def IsRun (σ : Nat → State) (ms : Nat → Move) : Prop :=
  ∀ k, ∃ ps, step ((σ k).offer (ms k) ps) = .next (σ (k + 1))

/-- Weak fairness of handler steps (R152): a handler that stays enabled runs eventually. -/
def WeaklyFair (σ : Nat → State) (ms : Nat → Move) : Prop :=
  ∀ (h : Handler) (k : Nat), (∀ j, k ≤ j → h.enabled (σ j)) → ∃ j, k ≤ j ∧ ms j = h.move

/-- Move a is the first micro-step of an attempt of TMR_READ_SYNC (R167): the accepted request, or the
first byte read of a retry. -/
def AttemptBegins (σ : Nat → State) (ms : Nat → Move) (a : Nat) : Prop :=
  (σ (a + 1)).op ≠ .idle ∧ (σ a).status.halted = false ∧
    (ms a = .request (encode .tmrReadSync) ∧ (σ a).op = .idle ∨
      ms a = .micro ∧ (σ a).op = syncAttemptStart (σ a).cfg)

/-- Moves a to b are one attempt of TMR_READ_SYNC (R167): from its first micro-step to the one that
decides it, after which the operation has ended or the next attempt has read no byte. -/
def IsAttempt (σ : Nat → State) (ms : Nat → Move) (a b : Nat) : Prop :=
  a < b ∧ AttemptBegins σ ms a ∧
    (∀ i, a < i → i ≤ b → (∃ l sh, (σ i).op = .tmrReadSync l sh) ∧
      (σ i).op ≠ syncAttemptStart (σ i).cfg) ∧
    ms b = .micro ∧
    ((σ (b + 1)).op = .idle ∨ (σ (b + 1)).op = syncAttemptStart (σ (b + 1)).cfg)

/-- A tick handler step falls inside the moves a to b. -/
def TickInside (σ : Nat → State) (ms : Nat → Move) (a b : Nat) : Prop :=
  ∃ i, a < i ∧ i < b ∧ ms i = .tickIsr ∧ Handler.tick.enabled (σ i)

/-- TICK_SPARSE (R168): only finitely many consecutive attempts of one TMR_READ_SYNC have a tick handler
step inside them. Where one operation stays in progress and makes attempt after attempt, one of them,
however late the search begins, has no tick handler step inside it. -/
def TickSparse (σ : Nat → State) (ms : Nat → Move) : Prop :=
  ∀ k, (∀ j, k ≤ j → (σ j).op ≠ .idle) →
    (∀ j, k ≤ j → ∃ a b, j ≤ a ∧ IsAttempt σ ms a b) →
      ∃ a b, k ≤ a ∧ IsAttempt σ ms a b ∧ ¬ TickInside σ ms a b

end Sys2Proof.Machine
end

