-- ==== Sys2Proof/Safety.lean ====
section
/-! DEFINITION. The terms the claims use: runs of steps, when agents may step, the invariants of the
units, and what the statistics rules call the entries of a window. -/

namespace Sys2Proof.Machine

open Sys2Proof

/-- k steps, stopping at the first fault or refusal. -/
def runSteps : Nat → State → Result
  | 0, s => .next s
  | k + 1, s =>
    match step s with
    | .next t => runSteps k t
    | .fault r => .fault r
    | .refused r => .refused r

/-- The block takes the turns its schedule lists: its parameters meet R7, no FAULT is recorded (R251)
and it is not halted (R250). -/
abbrev State.Ready (s : State) : Prop :=
  s.cfg.wf = true ∧ s.fault = none ∧ s.status.halted = false

/-- The handshake and the timer mode (R33 to R38): widths, SHADOW = (LIVE + 1) mod 2^TW (R35), LIVE
between 1 and RELOAD while the timer runs (R162), 0 in the other modes, FINISHED exactly in STOPPED. -/
abbrev State.TimerInv (s : State) : Prop :=
  s.cfg.wf = true ∧ s.ct.reload < 2 ^ s.cfg.tw ∧ s.ct.live ≤ s.ct.reload ∧
  s.ct.shadow = (s.ct.live + 1) % 2 ^ s.cfg.tw ∧
  (s.ct.tmode.running = true ↔ 1 ≤ s.ct.live) ∧
  (s.ct.tmode = .idle → s.ct.reload = 0) ∧
  (s.ct.finished = true ↔ s.ct.tmode = .stopped)

/-- The framing unit (R22 to R28, R121): CHKACC is CHK_INIT in MAGIC and COMMAND, and afterwards the
checksum of the command, length and payload bytes received so far; the indices stay inside PBUF; the
block is halted only by LENGTH or CHECKSUM, and then with a cause. -/
abbrev State.FramingInv (s : State) : Prop :=
  s.cfg.wf = true ∧ s.mem.pbuf.length = s.cfg.maxPayload ∧ s.frm.chkacc < 2 ^ s.cfg.cw ∧
  (s.status.halted = true ↔ s.status.cause ≠ .none) ∧
  (s.frm.fstate ≠ .magic → s.frm.midx = 0) ∧
  (s.frm.fstate = .magic → s.frm.chkacc = s.cfg.chkInit ∧ s.status.halted = false) ∧
  (s.frm.fstate = .command → s.frm.chkacc = s.cfg.chkInit ∧ s.status.halted = false) ∧
  (s.frm.fstate = .length → s.status.halted = false →
    s.frm.chkacc = chkOver s.cfg [s.frm.fcmd]) ∧
  (s.frm.fstate = .payload → s.status.halted = false ∧ s.frm.pidx.toNat < s.frm.flen.toNat ∧
    s.cfg.pmin ≤ s.frm.flen.toNat ∧ s.frm.flen.toNat < s.cfg.maxPayload ∧
    s.frm.chkacc = chkOver s.cfg
      (s.frm.fcmd :: s.frm.flen :: s.mem.pbuf.take s.frm.pidx.toNat)) ∧
  (s.frm.fstate = .checksum → s.cfg.pmin ≤ s.frm.flen.toNat ∧
    s.frm.flen.toNat < s.cfg.maxPayload ∧
    s.frm.chkacc = chkOver s.cfg
      (s.frm.fcmd :: s.frm.flen :: s.mem.pbuf.take s.frm.flen.toNat))

/-- The ring buffer and the pulse counter (R32, R39 to R43): sizes and widths of the buffers, both
cursors below CAP and both counts at most CAP. -/
abbrev State.RingInv (s : State) : Prop :=
  s.cfg.wf = true ∧ s.mem.wf s.cfg ∧ s.ct.pulse < 2 ^ s.cfg.pcw ∧
  s.rbs.cursor.toNat < s.cfg.cap ∧ s.rbs.valid.toNat ≤ s.cfg.cap ∧
  s.rbs.cCursor.toNat < s.cfg.cap ∧ s.rbs.cValid.toNat ≤ s.cfg.cap

/-- The traversal that OPSTATE holds, if any (R45). -/
def OpState.traversal? : OpState → Option Traversal
  | .idle => none
  | .tmrReadSync _ _ => none
  | .rbStats t => some t

/-- The snapshot (R44, R206, R207): all 0 when statistics are unavailable; when available, the window
is between SHORT and CAP, the halves add up to the total (R209), the rates and the tolerance are those
of R207 and S_TOLV says that the total is at least 1. A traversal in progress has a good window. -/
abbrev State.SnapshotInv (s : State) : Prop :=
  s.RingInv ∧
  (s.snap.avail = false → s.snap = Snapshot.zero) ∧
  (s.snap.avail = true →
    s.cfg.short ≤ s.snap.window.toNat ∧ s.snap.window.toNat ≤ s.cfg.cap ∧
    s.snap.newer.toNat + s.snap.older.toNat = s.snap.total.toNat ∧
    s.snap.rlong.toNat = s.cfg.k * s.snap.total.toNat / s.snap.window.toNat ∧
    s.snap.rshort.toNat = s.cfg.k * s.snap.short.toNat / s.cfg.short ∧
    s.snap.tol.toNat = (if s.snap.total = 0 then 0 else s.cfg.k2 / isqrt s.snap.total.toNat) ∧
    (s.snap.tolv = true ↔ 1 ≤ s.snap.total.toNat)) ∧
  (∀ t ∈ s.op.traversal?,
    s.cfg.short ≤ t.window.toNat ∧ t.window.toNat ≤ s.cfg.cap ∧ t.newer ≤ t.total ∧
    t.short ≤ t.total)

/-- Entry i of the backward traversal from C_CURSOR (R205), 0 the most recent. -/
def State.copyEntry (s : State) (i : Nat) : Nat :=
  s.mem.ringEntry (ringSlot s.cfg s.rbs.cCursor.toNat i)

/-- The sum of the n most recent entries from C_CURSOR (R205). -/
def State.copySum (s : State) (n : Nat) : Nat := ((List.range n).map s.copyEntry).sum

/-- The decimal value of a formatted string, its spaces and point deleted (R106). -/
def decimalValue (str : List Byte) : Nat :=
  (str.filter fun ch => ch ≠ asciiSpace ∧ ch ≠ asciiPoint).foldl
    (fun acc ch => 10 * acc + (ch.toNat - 0x30)) 0

/-- The requests that pass the bytes bs to the framing unit, one FRM_BYTE each (R94). -/
def byteRequests (bs : List Byte) : List Move := bs.map fun b => .request (encode (.frmByte b))

/-- The byte that the step of s passes to the framing unit: that of an FRM_BYTE request which the port
accepts (R80, R120). -/
def State.acceptedByte (s : State) : Option Byte :=
  match s.moves, s.op, s.status.halted with
  | .request w :: _, .idle, false =>
    match decode w with
    | .instr (.frmByte b) => some b
    | _ => none
  | _, _, _ => none

/-- The bytes fed to the framing unit since the last RESET, in order, after k more steps from s and with
`fed` fed before: whatever other moves the schedule holds (R129, R130). -/
def bytesFed (fed : List Byte) : Nat → State → List Byte
  | 0, _ => fed
  | k + 1, s =>
    match step s with
    | .next t =>
      bytesFed (if s.moves.head? = some .reset then [] else fed ++ s.acceptedByte.toList) k t
    | .fault _ => fed
    | .refused _ => fed

/-- Moves that may fall between the micro-steps of a read: no RESET, and too few edge handler turns to
overflow PULSE (R158). -/
abbrev State.Admits (s : State) (ms : List Move) : Prop :=
  .reset ∉ ms ∧ s.ct.pulse + ms.count .edgeIsr < 2 ^ s.cfg.pcw

/-- An attempt of TMR_READ_SYNC is about to read its first byte (R167): with the request that `first`
holds, at an idle port, or at the position a retry leaves in OPSTATE. `left` is how many micro-steps
it then takes. -/
abbrev State.AttemptStarts (s : State) (first : List Move) (left : Nat) : Prop :=
  s.op = .idle ∧ first = [.request (encode .tmrReadSync)] ∧ left = 2 * (s.cfg.tw / 8) - 1 ∨
    s.op = syncAttemptStart s.cfg ∧ first = [] ∧ left = 2 * (s.cfg.tw / 8)

end Sys2Proof.Machine
end

