-- ==== Sys2Proof/Certificates/Slice0/Obligations.lean ====
section
/-! DEFINITION. The statements about the block, from the numbered rules of spec/. A statement about exec
or step that is an equation to `.next` gives the whole next state, so it is the frame too: every field
not named in the update is unchanged. The parameters are those of the state (`s.cfg`), so a statement
holds for every well-formed configuration. -/

open Sys2Proof Sys2Proof.Machine

/-! ### Encoding -/

/-- R81, R82, R84: the decoder reads from an instruction's request word that instruction, with every
operand. -/
def Obligations.DecodeOfEncodeIsTheInstruction : Prop :=
  ∀ i : Instr, decode (encode i) = .instr i

/-- R82: no bit of an accepted word is dropped; the word is the encoding of what it decodes to. -/
def Obligations.AcceptedWordIsTheEncoding : Prop :=
  ∀ (w : Request) (i : Instr), decode w = .instr i → encode i = w

/-- R82, R84, R85: the operation codes and, per code, the mask of the bits that must be 0. A word is
illegal exactly when no row of the map matches it. -/
def Obligations.IllegalWordsAreThoseOutsideTheMap : Prop :=
  ∀ w : Request,
    (∃ why, decode w = .illegal why) ↔
      ¬ ∃ row ∈ ([(0x01, 0x07FFFF00FFFFFFFF), (0x02, 0x07FFFFFFFFFFFFFF),
          (0x03, 0x07FFFFFFFFFFFFFF), (0x04, 0x07FFFFFFFFFFFFFF), (0x05, 0x07FFFFFEFFFFFFFF),
          (0x06, 0x07FFFFFFFFFFFFFF), (0x07, 0x07FFFFFFFFFFFFFF), (0x08, 0x07FFFFFE00000000),
          (0x09, 0x07FFFFFFFFFFFFFF), (0x0A, 0x07FFFFFFFFFFFFFF), (0x0B, 0x07FFFFFFFFFFFFFF),
          (0x0C, 0x07FFFFFF00000000), (0x0D, 0x07FFFFFF00000000), (0x0E, 0x07FFFFFFFFFFFFFF),
          (0x0F, 0x07FFFFFFFFFFFFFF), (0x10, 0x07FFFFFFFFFFFFFF), (0x11, 0x07FFFF00FFFFFFFF),
          (0x12, 0x07FFFFFF00000000), (0x13, 0x07FF000000000000)] : List (Nat × Request)),
        w.toNat / 2 ^ 59 = row.1 ∧ w &&& row.2 = 0

/-- Words written out from R81 and R84 decode to the operations they stand for (the vectors V-ENC of
95_test_vectors). -/
def Obligations.WordsOfTheSpecDecode : Prop :=
  decode 0x080000A500000000 = .instr (.frmByte 0xA5) ∧
  decode 0x2800000100000000 = .instr (.irqRestore true) ∧
  decode 0x4000000100000002 = .instr (.tmrArm .interval 2) ∧
  decode 0x6800000000000008 = .instr (.rbStats 8) ∧
  decode 0x8800000C00000000 = .instr (.snapRead 12) ∧
  decode 0x90000000FFFFFFFF = .instr (.isqrt 0xFFFFFFFF) ∧
  decode 0x9800040200000005 = .instr (.fmt 5 2 4)

/-! ### The step -/

/-- R80: an idle, ready block accepts the request presented to it and runs the instruction it decodes
to, on the state with that move used up and no output driven yet. -/
def Obligations.StepRunsTheDecodedInstruction : Prop :=
  ∀ (s : State) (w : Request) (rest : List Move) (i : Instr),
    s.Ready → s.op = .idle → s.moves = .request w :: rest → decode w = .instr i →
      step s = exec i { s with moves := rest, out := [] }

/-- R85, R251, R255: a request word that matches no row of the map records ILLEGAL_OP with that word
as its origin, and nothing else of the block changes. -/
def Obligations.IllegalRequestRecordsFault : Prop :=
  ∀ (s : State) (w : Request) (rest : List Move) (why : Illegal),
    s.Ready → s.op = .idle → s.moves = .request w :: rest → decode w = .illegal why →
      step s = .next { s with
        moves := rest, out := [], fault := some ⟨.illegalOp, .request w⟩ }

/-- R29, R251, R8: a state with FAULT set has no further step, whatever is scheduled, RESET included; a
configuration that breaks a constraint of R7 is refused. -/
def Obligations.FaultedOrIllFormedBlockHasNoStep : Prop :=
  ∀ s : State,
    (∀ r, s.cfg.wf = true → s.fault = some r → step s = .fault (.modelFault r)) ∧
    (s.cfg.wf = false → step s = .refused .badConfig)

/-- R250: while HALTED = 1 every turn but RESET leaves the block as it is: no request is accepted, no
event sets a flag, no handler runs. That such a turn is a next state which uses up its place in the
schedule, and that a request is dropped and not kept, is the model's choice (notes/assumptions/3.md). -/
def Obligations.HaltedBlockOnlyResets : Prop :=
  ∀ (s : State) (m : Move) (rest : List Move),
    s.cfg.wf = true → s.fault = none → s.status.halted = true → m ≠ .reset →
      s.moves = m :: rest → step s = .next { s with moves := rest, out := [] }

/-- R7, R280: no step changes the parameters. -/
def Obligations.NoStepChangesTheParameters : Prop :=
  ∀ s t : State, step s = .next t → t.cfg = s.cfg

/-! ### Reset -/

/-- R280: RESET is taken in any state without a fault, halted or inside an operation, and leaves every
register that has a reset value at it, OPSTATE idle, and the parameters unchanged. -/
def Obligations.ResetEventRestoresTheRegisters : Prop :=
  ∀ (s : State) (rest : List Move),
    s.cfg.wf = true → s.fault = none → s.moves = .reset :: rest →
      ∃ t, step s = .next t ∧ t.cfg = s.cfg ∧ t.moves = rest ∧ t.fault = none ∧ t.out = [] ∧
        t.frm.fstate = .magic ∧ t.frm.midx = 0 ∧ t.frm.chkacc = s.cfg.chkInit ∧
        t.status = ⟨false, .none⟩ ∧ t.irq = ⟨false, false, false⟩ ∧
        t.ct = ⟨0, 0, 1, .idle, 0, false⟩ ∧
        t.rbs.cursor.toNat = s.cfg.cap - 1 ∧ t.rbs.valid = 0 ∧ t.rbs.range = .low ∧
        t.rbs.cCursor.toNat = s.cfg.cap - 1 ∧ t.rbs.cValid = 0 ∧
        t.snap = ⟨false, 0, 0, 0, 0, 0, 0, 0, 0, false⟩ ∧ t.op = .idle

/-- R281: the initial state of a run is the state after RESET, with FAULT = none. -/
def Obligations.InitialStateIsTheResetState : Prop :=
  ∀ c : Config, c.wf = true →
    (State.resetWith c).cfg = c ∧ (State.resetWith c).fault = none ∧
    (State.resetWith c).frm.fstate = .magic ∧ (State.resetWith c).frm.midx = 0 ∧
    (State.resetWith c).frm.chkacc = c.chkInit ∧
    (State.resetWith c).status = ⟨false, .none⟩ ∧
    (State.resetWith c).irq = ⟨false, false, false⟩ ∧
    (State.resetWith c).ct = ⟨0, 0, 1, .idle, 0, false⟩ ∧
    (State.resetWith c).rbs.cursor.toNat = c.cap - 1 ∧ (State.resetWith c).rbs.valid = 0 ∧
    (State.resetWith c).rbs.range = .low ∧ (State.resetWith c).rbs.cCursor.toNat = c.cap - 1 ∧
    (State.resetWith c).rbs.cValid = 0 ∧
    (State.resetWith c).snap = ⟨false, 0, 0, 0, 0, 0, 0, 0, 0, false⟩ ∧
    (State.resetWith c).op = .idle

/-! ### Events, handlers and interrupt control -/

/-- R150, R151: an edge sets PEND_EDGE, a tick sets PEND_TICK only while the timer runs, whatever IE
is; nothing else changes. -/
def Obligations.EventsSetTheirPendingFlag : Prop :=
  ∀ (s : State) (rest : List Move), s.Ready →
    (s.moves = .edge :: rest →
      step s = .next { s with moves := rest, out := [], irq := { s.irq with pendEdge := true } }) ∧
    (s.moves = .tick :: rest → s.ct.tmode = .total ∨ s.ct.tmode = .interval →
      step s = .next { s with moves := rest, out := [], irq := { s.irq with pendTick := true } }) ∧
    (s.moves = .tick :: rest → s.ct.tmode = .idle ∨ s.ct.tmode = .stopped →
      step s = .next { s with moves := rest, out := [] })

/-- R45, R80, R152: while a multi-step operation is in progress the port accepts no new operation, with
none in progress there is no micro-step, and a handler has no step while IE = 0 or its pending flag
is 0. That such a turn is a next state which uses up its place in the schedule, and that a request is
dropped and not kept, is the model's choice (notes/assumptions/3.md). -/
def Obligations.TurnsWithNoEnabledStepDoNothing : Prop :=
  ∀ (s : State) (m : Move) (rest : List Move), s.Ready → s.moves = m :: rest →
    ((∃ w, m = .request w) ∧ s.op ≠ .idle ∨ m = .micro ∧ s.op = .idle ∨
      m = .edgeIsr ∧ (s.irq.ie = false ∨ s.irq.pendEdge = false) ∨
      m = .tickIsr ∧ (s.irq.ie = false ∨ s.irq.pendTick = false)) →
    step s = .next { s with moves := rest, out := [] }

/-- R158, R153: an enabled edge handler step counts the edge, sends EDGE_FEEDBACK and clears the
pending flag, and IE stays 1; at PULSE = 2^PCW - 1 it records OVERFLOW and writes nothing else. -/
def Obligations.EdgeHandlerCountsOneEdge : Prop :=
  ∀ (s : State) (rest : List Move),
    s.Ready → s.moves = .edgeIsr :: rest → s.irq.ie = true → s.irq.pendEdge = true →
      (s.ct.pulse < 2 ^ s.cfg.pcw - 1 →
        step s = .next { s with
          moves := rest, out := [.edgeFeedback],
          ct := { s.ct with pulse := s.ct.pulse + 1 },
          irq := { s.irq with pendEdge := false } }) ∧
      (s.ct.pulse = 2 ^ s.cfg.pcw - 1 →
        step s = .next { s with
          moves := rest, out := [], fault := some ⟨.overflow, .edgeHandler⟩ })

/-- R162: an enabled tick handler step of a running countdown above 1 moves LIVE into SHADOW,
decrements LIVE and clears PEND_TICK. -/
def Obligations.TickHandlerCountsDown : Prop :=
  ∀ (s : State) (rest : List Move),
    s.Ready → s.moves = .tickIsr :: rest → s.irq.ie = true → s.irq.pendTick = true →
      s.ct.tmode = .total ∨ s.ct.tmode = .interval →
      2 ≤ s.ct.live → s.ct.live < 2 ^ s.cfg.tw →
      step s = .next { s with
        moves := rest, out := [],
        ct := { s.ct with shadow := s.ct.live, live := s.ct.live - 1 },
        irq := { s.irq with pendTick := false } }

/-- R163, R200: at zero in INTERVAL mode the tick handler pushes PULSE into the next slot, zeroes it
and rearms the countdown with its shadow. -/
def Obligations.IntervalTickRotatesTheRing : Prop :=
  ∀ (s : State) (rest : List Move),
    s.Ready → s.moves = .tickIsr :: rest → s.irq.ie = true → s.irq.pendTick = true →
      s.ct.tmode = .interval → s.ct.live = 1 →
      step s = .next { s with
        moves := rest, out := [],
        ct := { s.ct with
          pulse := 0, live := s.ct.reload, shadow := (s.ct.reload + 1) % 2 ^ s.cfg.tw },
        irq := { s.irq with pendTick := false },
        mem := { s.mem with rb := s.mem.rb.set ((s.rbs.cursor.toNat + 1) % s.cfg.cap) s.ct.pulse },
        rbs := { s.rbs with
          cursor := BitVec.ofNat 8 ((s.rbs.cursor.toNat + 1) % s.cfg.cap),
          valid := BitVec.ofNat 8 (min (s.rbs.valid.toNat + 1) s.cfg.cap) } }

/-- R164: at zero in TOTAL mode the tick handler marks the measurement finished, stops the timer and
sends FINISHED_EVENT. -/
def Obligations.TotalTickFinishesTheMeasurement : Prop :=
  ∀ (s : State) (rest : List Move),
    s.Ready → s.moves = .tickIsr :: rest → s.irq.ie = true → s.irq.pendTick = true →
      s.ct.tmode = .total → s.ct.live = 1 →
      step s = .next { s with
        moves := rest, out := [.finishedEvent],
        ct := { s.ct with shadow := 1, live := 0, finished := true, tmode := .stopped },
        irq := { s.irq with pendTick := false } }

/-- R165: in IDLE or STOPPED mode the tick handler clears PEND_TICK and writes nothing else. -/
def Obligations.TickHandlerOfAStoppedTimer : Prop :=
  ∀ (s : State) (rest : List Move),
    s.Ready → s.moves = .tickIsr :: rest → s.irq.ie = true → s.irq.pendTick = true →
      s.ct.tmode = .idle ∨ s.ct.tmode = .stopped →
      step s = .next { s with moves := rest, out := [], irq := { s.irq with pendTick := false } }

/-- R152, R153, R158, R162, R163: in an unending run whose handlers are weakly fair, with IE = 1, HALTED = 0 and
no RESET from some point on, a pending edge is counted, once, with its feedback, and a pending tick of
a running timer counts LIVE down, or rearms it at the end of an interval. -/
def Obligations.FairRunsServeTheHandlers : Prop :=
  ∀ (σ : Nat → State) (ms : Nat → Move) (k : Nat),
    IsRun σ ms → WeaklyFair σ ms →
      (∀ j, k ≤ j →
        (σ j).irq.ie = true ∧ (σ j).status.halted = false ∧ ms j ≠ .reset) →
      ((σ k).irq.pendEdge = true →
        ∃ j, k ≤ j ∧ ms j = .edgeIsr ∧ (∀ i, k ≤ i → i ≤ j → (σ i).irq.pendEdge = true) ∧
          (σ (j + 1)).irq.pendEdge = false ∧ (σ (j + 1)).ct.pulse = (σ j).ct.pulse + 1 ∧
          (σ (j + 1)).out = [.edgeFeedback]) ∧
      ((σ k).TimerInv → (σ k).ct.tmode.running = true → (σ k).irq.pendTick = true →
        ∃ j, k ≤ j ∧ ms j = .tickIsr ∧
          (∀ i, k ≤ i → i ≤ j →
            (σ i).irq.pendTick = true ∧ (σ i).ct.live = (σ k).ct.live) ∧
          (σ (j + 1)).irq.pendTick = false ∧
          (σ (j + 1)).ct.live =
            if (σ k).ct.live = 1 ∧ (σ k).ct.tmode = .interval then (σ k).ct.reload
            else (σ k).ct.live - 1)

/-- R154 to R157: the four interrupt-control operations, their words and their whole effect, that an
IRQ_RESTORE word with B[7:1] ≠ 0 is illegal, and that IRQ_SAVE_DISABLE then IRQ_RESTORE of its result
leaves IE as it was. -/
def Obligations.InterruptControlOperations : Prop :=
  encode .irqDisable = 0x1000000000000000 ∧ encode .irqEnable = 0x1800000000000000 ∧
  encode .irqSaveDisable = 0x2000000000000000 ∧
  encode (.irqRestore false) = 0x2800000000000000 ∧
  encode (.irqRestore true) = 0x2800000100000000 ∧
  (∀ b : Byte, 2 ≤ b.toNat → ∃ why, decode (requestWord 0x05 0 b 0) = .illegal why) ∧
  ∀ s : State,
    exec .irqDisable s = .next { s with irq := { s.irq with ie := false } } ∧
    exec .irqEnable s = .next { s with irq := { s.irq with ie := true } } ∧
    exec .irqSaveDisable s = .next { s with
      out := s.out ++ [.res (if s.irq.ie then 1 else 0)], irq := { s.irq with ie := false } } ∧
    (∀ b, exec (.irqRestore b) s = .next { s with irq := { s.irq with ie := b } }) ∧
    ∀ t v, exec .irqSaveDisable s = .next t → t.out = s.out ++ [.res v] →
      ∃ u, exec (.irqRestore (decide (v = 1))) t = .next u ∧ u.irq = s.irq

/-- R35, R36: the handshake SHADOW = (LIVE + 1) mod 2^TW, the widths, and the tie between the mode,
the countdown and FINISHED are kept by every step of every agent. -/
def Obligations.EveryStepKeepsTheTimerInvariant : Prop :=
  ∀ s t : State, s.TimerInv → step s = .next t → t.TimerInv

/-! ### Pulse counter and timer operations -/

/-- R159, R160, R65: the atomic read and the atomic read-and-reset of the pulse counter. -/
def Obligations.PulseCounterReads : Prop :=
  encode .cntRead = 0x3000000000000000 ∧ encode .cntReadReset = 0x3800000000000000 ∧
  ∀ s : State,
    exec .cntRead s = .next { s with out := s.out ++ [.res (BitVec.ofNat 32 s.ct.pulse)] } ∧
    exec .cntReadReset s = .next { s with
      out := s.out ++ [.res (BitVec.ofNat 32 s.ct.pulse)], ct := { s.ct with pulse := 0 } }

/-- R161, R255: TMR_ARM of an idle timer with a countdown value that fits arms the countdown, its shadow
and its reload value, sets the mode, and clears FINISHED and a stale PEND_TICK. A timer that is not
idle gives ARM_ACTIVE whatever the value; otherwise V = 0 or V ≥ 2^TW gives ARM_RANGE. A fault writes
nothing but FAULT. -/
def Obligations.TimerArmStartsTheCountdownOrFaults : Prop :=
  ∀ (s : State) (m : ArmMode) (v : Word),
    (s.ct.tmode = .idle → 1 ≤ v.toNat → v.toNat < 2 ^ s.cfg.tw →
      exec (.tmrArm m v) s = .next { s with
        ct := { s.ct with
          shadow := (v.toNat + 1) % 2 ^ s.cfg.tw, live := v.toNat, reload := v.toNat,
          tmode := (match m with | .total => .total | .interval => .interval),
          finished := false },
        irq := { s.irq with pendTick := false } }) ∧
    (s.ct.tmode ≠ .idle → exec (.tmrArm m v) s =
      .next { s with fault := some ⟨.armActive, .request (encode (.tmrArm m v))⟩ }) ∧
    (s.ct.tmode = .idle → v.toNat = 0 ∨ 2 ^ s.cfg.tw ≤ v.toNat → exec (.tmrArm m v) s =
      .next { s with fault := some ⟨.armRange, .request (encode (.tmrArm m v))⟩ })

/-- R166: TMR_READ_FINISHED drives FINISHED, zero-extended, and writes nothing. -/
def Obligations.ReadFinishedDrivesTheFlag : Prop :=
  encode .tmrReadFinished = 0x5000000000000000 ∧
  ∀ s : State, exec .tmrReadFinished s =
    .next { s with out := s.out ++ [.res (if s.ct.finished then 1 else 0)] }

/-- R167, R64, R254: every micro-step of TMR_READ_SYNC. Accepting it reads one byte of LIVE, some byte k
of its TW/8, into place. Each later one reads a byte still left, of LIVE first and then of SHADOW. The
last byte of SHADOW decides the attempt: consistent values end the operation and drive RES; others
leave it with no byte read, drive nothing and change no register. That the accepting step is the
first byte read is the model's reading (notes/assumptions/14.md). -/
def Obligations.ReadSyncMicroSteps : Prop :=
  encode .tmrReadSync = 0x4800000000000000 ∧
  (∀ s : State, s.cfg.wf = true →
    ∃ k < s.cfg.tw / 8, exec .tmrReadSync s = .next { s with
      picks := s.picks.tail,
      op := .tmrReadSync
        ⟨(List.range (s.cfg.tw / 8)).erase k, s.ct.live / 256 ^ k % 256 * 256 ^ k⟩
        ⟨List.range (s.cfg.tw / 8), 0⟩ }) ∧
  ∀ (s : State) (rest : List Move) (l sh : ByteAcc),
    s.Ready → s.op = .tmrReadSync l sh → s.moves = .micro :: rest →
    (l.left ≠ [] → ∃ k ∈ l.left, step s = .next { s with
      moves := rest, out := [], picks := s.picks.tail,
      op := .tmrReadSync
        ⟨l.left.erase k, l.value + s.ct.live / 256 ^ k % 256 * 256 ^ k⟩ sh }) ∧
    (l.left = [] → 2 ≤ sh.left.length → ∃ k ∈ sh.left, step s = .next { s with
      moves := rest, out := [], picks := s.picks.tail,
      op := .tmrReadSync l
        ⟨sh.left.erase k, sh.value + s.ct.shadow / 256 ^ k % 256 * 256 ^ k⟩ }) ∧
    ∀ k, l.left = [] → sh.left = [k] →
      ((sh.value + s.ct.shadow / 256 ^ k % 256 * 256 ^ k + 2 ^ s.cfg.tw - l.value) %
          2 ^ s.cfg.tw = 1 → step s = .next { s with
        moves := rest, out := [.res (BitVec.ofNat 32 l.value)], picks := s.picks.tail,
        op := .idle }) ∧
      ((sh.value + s.ct.shadow / 256 ^ k % 256 * 256 ^ k + 2 ^ s.cfg.tw - l.value) %
          2 ^ s.cfg.tw ≠ 1 → step s = .next { s with
        moves := rest, out := [], picks := s.picks.tail,
        op := .tmrReadSync
          ⟨List.range (s.cfg.tw / 8), 0⟩ ⟨List.range (s.cfg.tw / 8), 0⟩ })

/-- R168, R167: an attempt of TMR_READ_SYNC inside which no tick handler step falls succeeds, whatever
the byte orders, be it the first attempt or one after a retry, and whatever else falls inside it: edge
handler steps, edges, ticks, and tick handler turns while IE = 0. It drives LIVE, leaves the port
idle, and of the registers changes none itself: only PULSE and the pending flags may differ. The
number of steps rests on the model's reading of the micro-steps (notes/assumptions/14.md). -/
def Obligations.UndisturbedSyncReadSucceeds : Prop :=
  ∀ (s : State) (first ms rest : List Move) (left : Nat),
    s.Ready → s.ct.live < 2 ^ s.cfg.tw → s.ct.shadow = (s.ct.live + 1) % 2 ^ s.cfg.tw →
      s.AttemptStarts first left → s.Admits ms → (s.irq.ie = true → .tickIsr ∉ ms) →
      ms.count .micro + 1 = left → s.moves = first ++ (ms ++ .micro :: rest) →
      ∃ t, runSteps (first.length + ms.length + 1) s = .next t ∧
        t = { s with
          moves := rest, op := .idle, picks := s.picks.drop (2 * (s.cfg.tw / 8)),
          out := [.res (BitVec.ofNat 32 s.ct.live)],
          ct := { s.ct with pulse := t.ct.pulse },
          irq := { s.irq with pendEdge := t.irq.pendEdge, pendTick := t.irq.pendTick } }

/-- R169, R168: a read that one tick handler step interrupts, whatever the byte orders and whatever else
falls inside it. The attempt it falls in ends either with a result that is LIVE as it was before the
step or as it is after it, or with a retry, which drives nothing; and then the next attempt ends with
LIVE as it is. The number of steps rests on the model's reading of the micro-steps
(notes/assumptions/14.md). -/
def Obligations.SyncReadAcrossOneTickIsAnActualValue : Prop :=
  ∀ (s : State) (first ms₁ ms₂ ms₃ rest : List Move) (left : Nat),
    s.Ready → s.TimerInv → s.AttemptStarts first left → s.Admits (ms₁ ++ ms₂ ++ ms₃) →
      .tickIsr ∉ ms₁ ++ ms₂ ++ ms₃ →
      (ms₁ ++ ms₂).count .micro + 1 = left → ms₃.count .micro + 1 = 2 * (s.cfg.tw / 8) →
      s.moves = first ++ (ms₁ ++ .tickIsr :: (ms₂ ++ .micro :: (ms₃ ++ .micro :: rest))) →
      ∃ t, runSteps (first.length + (ms₁ ++ ms₂).length + 2) s = .next t ∧
        t.moves = ms₃ ++ .micro :: rest ∧
        (t.op = .idle ∧
            (∃ v, t.out = [.res v] ∧ (v.toNat = s.ct.live ∨ v.toNat = t.ct.live)) ∨
          t.op = syncAttemptStart s.cfg ∧ t.out = [] ∧
            ∃ u, runSteps (ms₃.length + 1) t = .next u ∧ u.moves = rest ∧ u.op = .idle ∧
              u.out = [.res (BitVec.ofNat 32 t.ct.live)] ∧ u.ct.live = t.ct.live)

/-- R168: under the assumption TICK_SPARSE every TMR_READ_SYNC of an unending run ends with a result, if
its micro-steps keep being taken and no RESET abandons it. -/
def Obligations.SparseTicksEndTheSyncRead : Prop :=
  ∀ (σ : Nat → State) (ms : Nat → Move) (k : Nat),
    IsRun σ ms → TickSparse σ ms → (σ k).TimerInv → (σ k).status.halted = false →
      (∃ l sh, (σ k).op = .tmrReadSync l sh) → (∀ j, k ≤ j → ms j ≠ .reset) →
      (∀ j, k ≤ j → ∃ i, j ≤ i ∧ ms i = .micro) →
      ∃ j, k ≤ j ∧ (∀ i, k ≤ i → i ≤ j → ∃ l sh, (σ i).op = .tmrReadSync l sh) ∧
        ms j = .micro ∧ (σ (j + 1)).op = .idle ∧ ∃ v, (σ (j + 1)).out = [.res v]

/-! ### Framing -/

/-- R122: in MAGIC a byte that matches MAGIC[MIDX] advances the index, or after the fourth enters
COMMAND; any other byte resynchronizes silently, re-tested against MAGIC[0] only with MAGIC_RETEST. -/
def Obligations.MagicMatchesOrResynchronizes : Prop :=
  ∀ (s : State) (b : Byte), s.frm.fstate = .magic →
    (b = magicByte s.cfg s.frm.midx → s.frm.midx = 3 →
      exec (.frmByte b) s = .next { s with frm := { s.frm with midx := 0, fstate := .command } }) ∧
    (b = magicByte s.cfg s.frm.midx → s.frm.midx ≠ 3 →
      exec (.frmByte b) s = .next { s with frm := { s.frm with midx := s.frm.midx + 1 } }) ∧
    (b ≠ magicByte s.cfg s.frm.midx → s.cfg.magicRetest = true → b = s.cfg.magic0 →
      exec (.frmByte b) s =
        .next { s with frm := { s.frm with midx := 1, chkacc := s.cfg.chkInit } }) ∧
    (b ≠ magicByte s.cfg s.frm.midx → s.cfg.magicRetest = false ∨ b ≠ s.cfg.magic0 →
      exec (.frmByte b) s =
        .next { s with frm := { s.frm with midx := 0, chkacc := s.cfg.chkInit } })

/-- R123, R124: COMMAND takes any byte. LENGTH takes a byte in [PMIN, MAX_PAYLOAD), zero going straight
to CHECKSUM, and forces a restart on any other, with DIAG before RESTART (R253, R250). -/
def Obligations.CommandAndLengthBytes : Prop :=
  ∀ (s : State) (b : Byte),
    (s.frm.fstate = .command → exec (.frmByte b) s = .next { s with
      frm := { s.frm with fcmd := b, chkacc := chkUpd s.cfg s.frm.chkacc b, fstate := .length } }) ∧
    (s.frm.fstate = .length → b.toNat < s.cfg.pmin ∨ s.cfg.maxPayload ≤ b.toNat →
      exec (.frmByte b) s = .next { s with
        frm := { s.frm with flen := b, chkacc := chkUpd s.cfg s.frm.chkacc b },
        out := s.out ++ [.diag .badLength, .restart .badLength],
        status := ⟨true, .badLength⟩ }) ∧
    (s.frm.fstate = .length → s.cfg.pmin ≤ b.toNat → b.toNat < s.cfg.maxPayload → b = 0 →
      exec (.frmByte b) s = .next { s with
        frm := { s.frm with
          flen := b, chkacc := chkUpd s.cfg s.frm.chkacc b, fstate := .checksum } }) ∧
    (s.frm.fstate = .length → s.cfg.pmin ≤ b.toNat → b.toNat < s.cfg.maxPayload → b ≠ 0 →
      exec (.frmByte b) s = .next { s with
        frm := { s.frm with
          flen := b, chkacc := chkUpd s.cfg s.frm.chkacc b, pidx := 0, fstate := .payload } })

/-- R125: PAYLOAD stores the byte at PBUF[PIDX], and nowhere else, and leaves for CHECKSUM after the
last byte of the length. -/
def Obligations.PayloadByteIsStoredAtItsIndex : Prop :=
  ∀ (s : State) (b : Byte),
    s.frm.fstate = .payload → s.frm.pidx.toNat < s.cfg.maxPayload →
    s.mem.pbuf.length = s.cfg.maxPayload →
      ∃ t, exec (.frmByte b) s = .next t ∧
        t = { s with
          mem := t.mem,
          frm := { s.frm with
            chkacc := chkUpd s.cfg s.frm.chkacc b, pidx := s.frm.pidx + 1,
            fstate := if s.frm.pidx + 1 = s.frm.flen then .checksum else .payload } } ∧
        t.mem.rb = s.mem.rb ∧ t.mem.pbuf.length = s.mem.pbuf.length ∧
        t.mem.payloadByte s.frm.pidx.toNat = b ∧
        ∀ a, a ≠ s.frm.pidx.toNat → t.mem.payloadByte a = s.mem.payloadByte a

/-- R126, R127, R250: a matching checksum byte dispatches the command, the length and the payload in
order and returns to MAGIC; PBUF is then unspecified, and nothing is said of its bytes. Any other byte
forces a restart and dispatches nothing. -/
def Obligations.ChecksumByteDispatchesOrRestarts : Prop :=
  ∀ (s : State) (b : Byte), s.frm.fstate = .checksum →
    s.frm.flen.toNat ≤ s.cfg.maxPayload →
    (b = chkFin s.cfg s.frm.chkacc →
      ∃ t, exec (.frmByte b) s = .next t ∧
        t = { s with
          mem := t.mem, freeCount := t.freeCount,
          frm := { s.frm with fstate := .magic, midx := 0, chkacc := s.cfg.chkInit },
          out := s.out ++
            [.dispatch s.frm.fcmd s.frm.flen (s.mem.pbuf.take s.frm.flen.toNat)] } ∧
        t.mem.rb = s.mem.rb ∧ t.mem.pbuf.length = s.cfg.maxPayload) ∧
    (b ≠ chkFin s.cfg s.frm.chkacc →
      exec (.frmByte b) s = .next { s with
        out := s.out ++ [.diag .badChecksum, .restart .badChecksum],
        status := ⟨true, .badChecksum⟩ })

/-- R121, R128: CHKACC is CHK_INIT in MAGIC and is the checksum of the bytes received since COMMAND
afterwards, and the indices stay inside PBUF: kept by every step. -/
def Obligations.EveryStepKeepsTheFramingInvariant : Prop :=
  ∀ s t : State, s.FramingInv → step s = .next t → t.FramingInv

/-- R88, R120 to R127: from MAGIC with nothing matched, the bytes of a frame with an accepted length,
passed one by one, end in the dispatch of exactly its command and payload, and the unit is back in
MAGIC, in the same block otherwise but for the frame's own registers and PBUF. -/
def Obligations.ValidFrameIsDispatched : Prop :=
  ∀ (s : State) (cmd : Byte) (payload : List Byte) (rest : List Move),
    s.Ready → s.FramingInv → s.op = .idle → s.frm.fstate = .magic → s.frm.midx = 0 →
      s.cfg.pmin ≤ payload.length → payload.length < s.cfg.maxPayload →
      s.moves = byteRequests (wireFrame s.cfg cmd payload) ++ rest →
      ∃ t, runSteps (7 + payload.length) s = .next t ∧
        t.out = [.dispatch cmd (BitVec.ofNat 8 payload.length) payload] ∧
        t.frm.fstate = .magic ∧ t.frm.midx = 0 ∧
        t = { s with
          moves := rest, out := t.out, frm := t.frm, mem := { t.mem with rb := s.mem.rb },
          freeCount := t.freeCount }

/-- R129, R130: feeding bytes one at a time never gives a partial or corrupt dispatch, whatever falls
between them: handler turns, events, other requests, micro-steps, a RESET. From any state that waits
for the first magic byte, a step that sends DISPATCH ends, with the byte it accepts, the whole wire
frame of what is dispatched: the last 7 + len bytes fed since the last RESET, magic and checksum
included. -/
def Obligations.EveryDispatchIsAWholeFrame : Prop :=
  ∀ (s t : State) (k : Nat) (cmd len : Byte) (payload : List Byte),
    s.FramingInv → s.frm.fstate = .magic → s.frm.midx = 0 → s.out = [] →
      runSteps k s = .next t → .dispatch cmd len payload ∈ t.out →
      len.toNat = payload.length ∧ s.cfg.pmin ≤ payload.length ∧
        payload.length < s.cfg.maxPayload ∧ t.frm.fstate = .magic ∧
        wireFrame s.cfg cmd payload <:+ bytesFed [] k s

/-! ### Ring buffer and statistics -/

/-- R201: RB_COPY copies CURSOR and VALID in one step and leaves everything else, IE included. -/
def Obligations.CopyTakesCursorAndValid : Prop :=
  encode .rbCopy = 0x5800000000000000 ∧
  ∀ s : State, exec .rbCopy s =
    .next { s with rbs := { s.rbs with cCursor := s.rbs.cursor, cValid := s.rbs.valid } }

/-- R202, R203: RB_SELECT updates the range first, with strict comparisons, and drives the window of
the new range capped by C_VALID. -/
def Obligations.SelectFollowsTheNewRange : Prop :=
  ∀ (s : State) (x : Word), s.cfg.wf = true → s.rbs.cValid.toNat ≤ s.cfg.cap →
    (encode (.rbSelect x)).toNat = 0x6000000000000000 + x.toNat ∧
    (s.rbs.range = .low ∧ s.cfg.tUp < x.toNat ∨ s.rbs.range = .high ∧ s.cfg.tDown ≤ x.toNat →
      exec (.rbSelect x) s = .next { s with
        rbs := { s.rbs with range := .high },
        out := s.out ++ [.res (BitVec.ofNat 32 (min s.cfg.wHigh s.rbs.cValid.toNat))] }) ∧
    (s.rbs.range = .low ∧ x.toNat ≤ s.cfg.tUp ∨ s.rbs.range = .high ∧ x.toNat < s.cfg.tDown →
      exec (.rbSelect x) s = .next { s with
        rbs := { s.rbs with range := .low },
        out := s.out ++ [.res (BitVec.ofNat 32 s.rbs.cValid.toNat)] })

/-- R212, R203: with C_VALID ≥ SHORT the window that RB_SELECT drives lies in [SHORT, C_VALID], so the
RB_STATS that follows with it starts and records no fault. -/
def Obligations.SelectedWindowIsAccepted : Prop :=
  ∀ (s : State) (x : Word), s.cfg.wf = true → s.rbs.cValid.toNat ≤ s.cfg.cap →
    s.cfg.short ≤ s.rbs.cValid.toNat →
      ∃ t w, exec (.rbSelect x) s = .next t ∧ t.out = s.out ++ [.res w] ∧
        s.cfg.short ≤ w.toNat ∧ w.toNat ≤ s.rbs.cValid.toNat ∧
        ∃ u, exec (.rbStats w) t = .next u ∧ u.fault = t.fault ∧ u.op ≠ .idle

/-- R215, R202: a sequence of RB_SELECT requests with estimates all in [T_DOWN, T_UP] never changes
the range; a change to HIGH_RATE needs an estimate above T_UP, and a change back one below T_DOWN. -/
def Obligations.EstimatesInTheBandKeepTheRange : Prop :=
  (∀ (s : State) (xs : List Word) (rest : List Move), s.Ready → s.op = .idle →
    s.moves = xs.map (fun x => .request (encode (.rbSelect x))) ++ rest →
    (∀ x ∈ xs, s.cfg.tDown ≤ x.toNat ∧ x.toNat ≤ s.cfg.tUp) →
      ∃ t, runSteps xs.length s = .next t ∧ t.moves = rest ∧ t.rbs.range = s.rbs.range) ∧
  ∀ (s t : State) (x : Word), exec (.rbSelect x) s = .next t → t.rbs.range ≠ s.rbs.range →
    t.rbs.range = .high ∧ s.cfg.tUp < x.toNat ∨ t.rbs.range = .low ∧ x.toNat < s.cfg.tDown

/-- R204, R206, R255: the first micro-step of RB_STATS. With C_VALID < SHORT it ends the operation with
every S_* register 0 and the result 0, whatever the window; otherwise a window outside
[SHORT, C_VALID] records BAD_WINDOW, and a good window only puts the operation in progress. -/
def Obligations.StatsFirstMicroStep : Prop :=
  ∀ (s : State) (w : Word),
    (s.rbs.cValid.toNat < s.cfg.short → exec (.rbStats w) s = .next { s with
      snap := ⟨false, 0, 0, 0, 0, 0, 0, 0, 0, false⟩, out := s.out ++ [.res 0] }) ∧
    (s.cfg.short ≤ s.rbs.cValid.toNat →
      w.toNat < s.cfg.short ∨ s.rbs.cValid.toNat < w.toNat → exec (.rbStats w) s =
        .next { s with fault := some ⟨.badWindow, .request (encode (.rbStats w))⟩ }) ∧
    (s.cfg.short ≤ w.toNat → w.toNat ≤ s.rbs.cValid.toNat → exec (.rbStats w) s =
      .next { s with op := .rbStats ⟨w, 0, ⟨List.range (s.cfg.pcw / 8), 0⟩, 0, 0, 0⟩ })

/-- R205, R206, R207: a whole RB_STATS with a good window, undisturbed by handlers and whatever the
byte orders, writes the sums over the entries from C_CURSOR, the rates and the tolerance, drives 1 and
leaves the port idle; where the total or a rate does not fit in 32 bits it records OVERFLOW and writes
no snapshot. The number of steps rests on the model's reading of the micro-steps
(notes/assumptions/14.md). -/
def Obligations.UndisturbedStatsComputeTheSnapshot : Prop :=
  ∀ (s : State) (w : Word) (rest : List Move),
    s.Ready → s.RingInv → s.op = .idle →
    s.cfg.short ≤ w.toNat → w.toNat ≤ s.rbs.cValid.toNat →
    s.moves = .request (encode (.rbStats w)) ::
      (List.replicate (w.toNat * (s.cfg.pcw / 8) + 1) .micro ++ rest) →
    (s.copySum w.toNat < 2 ^ 32 → s.cfg.k * s.copySum w.toNat / w.toNat < 2 ^ 32 →
      s.cfg.k * s.copySum s.cfg.short / s.cfg.short < 2 ^ 32 →
      runSteps (w.toNat * (s.cfg.pcw / 8) + 2) s = .next { s with
        moves := rest, picks := s.picks.drop (w.toNat * (s.cfg.pcw / 8)), out := [.res 1],
        snap := {
          avail := true
          window := BitVec.ofNat 8 w.toNat
          total := BitVec.ofNat 32 (s.copySum w.toNat)
          newer := BitVec.ofNat 32 (s.copySum (w.toNat / 2))
          older := BitVec.ofNat 32 (s.copySum w.toNat - s.copySum (w.toNat / 2))
          short := BitVec.ofNat 32 (s.copySum s.cfg.short)
          rlong := BitVec.ofNat 32 (s.cfg.k * s.copySum w.toNat / w.toNat)
          rshort := BitVec.ofNat 32 (s.cfg.k * s.copySum s.cfg.short / s.cfg.short)
          tol := BitVec.ofNat 32 (if s.copySum w.toNat = 0 then 0
            else s.cfg.k2 / Nat.sqrt (s.copySum w.toNat))
          tolv := decide (1 ≤ s.copySum w.toNat) } }) ∧
    (2 ^ 32 ≤ s.copySum w.toNat ∨ 2 ^ 32 ≤ s.cfg.k * s.copySum w.toNat / w.toNat ∨
      2 ^ 32 ≤ s.cfg.k * s.copySum s.cfg.short / s.cfg.short →
      ∃ t, runSteps (w.toNat * (s.cfg.pcw / 8) + 2) s = .next t ∧
        t.fault = some ⟨.overflow, .request (encode (.rbStats w))⟩ ∧
        t = { s with moves := rest, picks := t.picks, out := [], op := t.op, fault := t.fault })

/-- R208: RB_EXCURSION on an available snapshot, with exact products and a strict comparison;
STATS_UNAVAILABLE otherwise. -/
def Obligations.ExcursionTest : Prop :=
  encode .rbExcursion = 0x7000000000000000 ∧
  ∀ s : State,
    (s.snap.avail = true → exec .rbExcursion s = .next { s with
      out := s.out ++ [.res (if ((s.snap.rlong.toNat : Int) - s.snap.rshort.toNat) ^ 2 >
        s.cfg.excMult * (s.snap.rlong.toNat * s.cfg.excScale / s.cfg.short : Nat)
        then 1 else 0)] }) ∧
    (s.snap.avail = false → exec .rbExcursion s =
      .next { s with fault := some ⟨.statsUnavailable, .request 0x7000000000000000⟩ })

/-- R209: RB_DRIFT on an available snapshot, with exact products and a strict comparison;
STATS_UNAVAILABLE otherwise. -/
def Obligations.DriftTest : Prop :=
  encode .rbDrift = 0x7800000000000000 ∧
  ∀ s : State,
    (s.snap.avail = true → exec .rbDrift s = .next { s with
      out := s.out ++ [.res (if ((s.snap.newer.toNat : Int) - s.snap.older.toNat) ^ 2 >
        s.cfg.driftC * (s.snap.newer.toNat + s.snap.older.toNat : Nat) then 1 else 0)] }) ∧
    (s.snap.avail = false → exec .rbDrift s =
      .next { s with fault := some ⟨.statsUnavailable, .request 0x7800000000000000⟩ })

/-- R210: RB_SHRINK cuts the live VALID to SHORT and touches nothing else: not CURSOR, the entries,
C_VALID, the snapshot or IE. -/
def Obligations.ShrinkCutsTheLiveCount : Prop :=
  encode .rbShrink = 0x8000000000000000 ∧
  ∀ s : State, exec .rbShrink s = .next { s with
    rbs := { s.rbs with valid := BitVec.ofNat 8 (min s.rbs.valid.toNat s.cfg.short) } }

/-- R211, R87: SNAP_READ, its word, and its whole effect: it drives the register its selector numbers,
zero-extended; a selector above 12 records ILLEGAL_OP with its request word. -/
def Obligations.SnapReadDrivesTheNumberedRegister : Prop :=
  ∀ (s : State) (sel : Byte) (v : Word),
    (encode (.snapRead sel)).toNat = 0x8800000000000000 + sel.toNat * 2 ^ 32 ∧
    ((sel, v) ∈ ([(0, if s.snap.avail then 1 else 0), (1, s.snap.window.setWidth 32),
        (2, s.snap.total), (3, s.snap.newer), (4, s.snap.older), (5, s.snap.short),
        (6, s.snap.rlong), (7, s.snap.rshort), (8, s.snap.tol),
        (9, if s.snap.tolv then 1 else 0),
        (10, match s.rbs.range with | .low => 0 | .high => 1),
        (11, s.rbs.cCursor.setWidth 32), (12, s.rbs.cValid.setWidth 32)] : List (Byte × Word)) →
      exec (.snapRead sel) s = .next { s with out := s.out ++ [.res v] }) ∧
    (12 < sel.toNat → exec (.snapRead sel) s =
      .next { s with fault := some ⟨.illegalOp, .request (encode (.snapRead sel))⟩ })

/-- R213: m pushes leave every entry of a window of W from the old cursor as it was while
W + m ≤ CAP, because they write the slots after that cursor. -/
def Obligations.PushesLeaveTheWindowIntact : Prop :=
  ∀ (s : State) (counts : List Nat) (w i : Nat),
    s.cfg.wf = true → s.mem.rb.length = s.cfg.cap → s.rbs.cursor.toNat < s.cfg.cap →
      w + counts.length ≤ s.cfg.cap → i < w →
      (counts.foldl (fun t x => push x t) s).mem.ringEntry
          (ringSlot s.cfg s.rbs.cursor.toNat i) =
        s.mem.ringEntry (ringSlot s.cfg s.rbs.cursor.toNat i)

/-- R214: after n ≥ CAP pushes VALID = CAP, and after an RB_COPY with no push since, the entries of the
backward traversal are exactly the last CAP values pushed, in reverse order. -/
def Obligations.RingHoldsTheLastPushesInReverse : Prop :=
  ∀ (s : State) (counts : List Nat),
    s.cfg.wf = true → s.mem.rb.length = s.cfg.cap → s.rbs.cursor.toNat < s.cfg.cap →
      s.rbs.valid.toNat ≤ s.cfg.cap → s.cfg.cap ≤ counts.length →
      (counts.foldl (fun t x => push x t) s).rbs.valid.toNat = s.cfg.cap ∧
      ∃ u, exec .rbCopy (counts.foldl (fun t x => push x t) s) = .next u ∧
        u.rbs.cValid.toNat = s.cfg.cap ∧
        (List.range s.cfg.cap).map u.copyEntry = counts.reverse.take s.cfg.cap

/-- R32, R39 to R43, R60: the buffers keep their sizes and widths, PULSE its width, and the cursors and
counts their bounds, at every step. -/
def Obligations.EveryStepKeepsTheRingInvariant : Prop :=
  ∀ s t : State, s.RingInv → step s = .next t → t.RingInv

/-- R44, R206, R207: the snapshot is all 0 or is consistent with its own total, window and sums, at
every step. -/
def Obligations.EveryStepKeepsTheSnapshotInvariant : Prop :=
  ∀ s t : State, s.SnapshotInv → step s = .next t → t.SnapshotInv

/-- R280, R281: the four invariants hold in the initial state of every well-formed configuration. -/
def Obligations.ResetMeetsTheInvariants : Prop :=
  ∀ c : Config, c.wf = true →
    (State.resetWith c).TimerInv ∧ (State.resetWith c).FramingInv ∧
    (State.resetWith c).SnapshotInv

/-! ### Whole-machine rules -/

/-- R46, R47 (the written-by column): outside a RESET event, the framing registers, PBUF, HALTED and
RESTART_CAUSE change only in a FRM_BYTE step, the range only in RB_SELECT, the copies only in RB_COPY,
the snapshot only in RB_STATS, and IE only in the four interrupt-control operations. -/
def Obligations.MainLoopRegistersHaveTheirOneWriter : Prop :=
  ∀ s t : State, step s = .next t → s.moves.head? ≠ some .reset →
    (t.frm ≠ s.frm ∨ t.mem.pbuf ≠ s.mem.pbuf ∨ t.status ≠ s.status →
      ∃ b, s.moves.head? = some (.request (encode (.frmByte b)))) ∧
    (t.rbs.range ≠ s.rbs.range →
      ∃ x, s.moves.head? = some (.request (encode (.rbSelect x)))) ∧
    (t.rbs.cCursor ≠ s.rbs.cCursor ∨ t.rbs.cValid ≠ s.rbs.cValid →
      s.moves.head? = some (.request (encode .rbCopy))) ∧
    (t.snap ≠ s.snap →
      (∃ w, s.moves.head? = some (.request (encode (.rbStats w)))) ∨
        ∃ v, s.op = .rbStats v ∧ s.moves.head? = some .micro) ∧
    (t.irq.ie ≠ s.irq.ie →
      ∃ i ∈ [Instr.irqDisable, .irqEnable, .irqSaveDisable, .irqRestore false, .irqRestore true],
        s.moves.head? = some (.request (encode i)))

/-- R46, R31 to R33 (the written-by column): outside a RESET event, LIVE, SHADOW, TMODE and FINISHED
change only in a TMR_ARM or tick handler step, RELOAD only in TMR_ARM, PULSE only in a handler or
CNT_READ_RESET, CURSOR and the ring entries only in a tick handler step, VALID there or in RB_SHRINK,
PEND_EDGE only by an edge or its handler, and PEND_TICK only by a tick, its handler or TMR_ARM. -/
def Obligations.TimerAndRingHaveTheirWriters : Prop :=
  ∀ s t : State, step s = .next t → s.moves.head? ≠ some .reset →
    (t.ct.live ≠ s.ct.live ∨ t.ct.shadow ≠ s.ct.shadow ∨ t.ct.tmode ≠ s.ct.tmode ∨
        t.ct.finished ≠ s.ct.finished →
      s.moves.head? = some .tickIsr ∨
        ∃ m v, s.moves.head? = some (.request (encode (.tmrArm m v)))) ∧
    (t.ct.reload ≠ s.ct.reload →
      ∃ m v, s.moves.head? = some (.request (encode (.tmrArm m v)))) ∧
    (t.ct.pulse ≠ s.ct.pulse →
      s.moves.head? = some .edgeIsr ∨ s.moves.head? = some .tickIsr ∨
        s.moves.head? = some (.request (encode .cntReadReset))) ∧
    (t.rbs.cursor ≠ s.rbs.cursor ∨ t.mem.rb ≠ s.mem.rb → s.moves.head? = some .tickIsr) ∧
    (t.rbs.valid ≠ s.rbs.valid →
      s.moves.head? = some .tickIsr ∨ s.moves.head? = some (.request (encode .rbShrink))) ∧
    (t.irq.pendEdge ≠ s.irq.pendEdge →
      s.moves.head? = some .edge ∨ s.moves.head? = some .edgeIsr) ∧
    (t.irq.pendTick ≠ s.irq.pendTick →
      s.moves.head? = some .tick ∨ s.moves.head? = some .tickIsr ∨
        ∃ m v, s.moves.head? = some (.request (encode (.tmrArm m v))))

/-- R255, R251: faults are precise. A step that records a fault changes no other register, buffer or
parameter: only FAULT, and of the model's own fields the schedule and the outputs, of which it drives
none. -/
def Obligations.FaultingStepWritesNothingElse : Prop :=
  ∀ s t : State, step s = .next t → t.fault ≠ none →
    t = { s with moves := s.moves.tail, out := [], fault := t.fault }

/-- R289: no step but RESET returns TMODE to IDLE, so the timer is armed once per reset. -/
def Obligations.OnlyResetReturnsTheTimerToIdle : Prop :=
  ∀ s t : State, step s = .next t → s.moves.head? ≠ some .reset →
    s.ct.tmode ≠ .idle → t.ct.tmode ≠ .idle

/-- R127, R250: DISPATCH, DIAG and RESTART are sent only by a FRM_BYTE step, FINISHED_EVENT only by a
tick handler step, EDGE_FEEDBACK only by an edge handler step. -/
def Obligations.OutputEventsHaveTheirOneSender : Prop :=
  ∀ (s t : State), step s = .next t →
    ((∃ c l p, .dispatch c l p ∈ t.out) ∨ (∃ c, .diag c ∈ t.out) ∨ (∃ c, .restart c ∈ t.out) →
      ∃ b, s.moves.head? = some (.request (encode (.frmByte b)))) ∧
    (.finishedEvent ∈ t.out → s.moves.head? = some .tickIsr) ∧
    (.edgeFeedback ∈ t.out → s.moves.head? = some .edgeIsr)

/-- R61, R120: a block without a fault whose framing unit keeps its invariant always steps: no move ends
in a fault or a refusal, so no access leaves a buffer and every byte is accepted in every state. That
a step answers a next state also for a turn of a halted block and for an empty schedule is the
model's choice (notes/assumptions/3.md, notes/assumptions/5.md). In states that R61 says cannot occur,
a payload byte whose index, or a matching checksum byte whose frame, lies outside PBUF faults by name:
the model's own stop (notes/assumptions/12.md). -/
def Obligations.OnlyFramesOutsideTheBufferStop : Prop :=
  (∀ s : State, s.FramingInv → s.fault = none → ∃ t, step s = .next t) ∧
  ∀ (s : State) (b : Byte),
    (s.frm.fstate = .payload → s.cfg.maxPayload ≤ s.frm.pidx.toNat →
      exec (.frmByte b) s = .fault .pbufIndex) ∧
    (s.frm.fstate = .checksum → b = chkFin s.cfg s.frm.chkacc →
      s.cfg.maxPayload < s.frm.flen.toNat → exec (.frmByte b) s = .fault .pbufIndex)

/-! ### Integer math -/

/-- R100, R102: for a 32-bit q the result is the largest r with r * r ≤ q, and it is a 16-bit value; it
is n at n * n and still n at n * n + 2 * n, for every 16-bit n. -/
def Obligations.SquareRootIsTheFloor : Prop :=
  (∀ q : Nat, q < 2 ^ 32 →
    isqrt q * isqrt q ≤ q ∧ q < (isqrt q + 1) * (isqrt q + 1) ∧ isqrt q < 2 ^ 16) ∧
  ∀ n : Nat, n < 2 ^ 16 → isqrt (n * n) = n ∧ isqrt (n * n + 2 * n) = n

/-- R101: ISQRT, its word, and its whole effect: it drives the square root of its operand. -/
def Obligations.IsqrtDrivesTheRoot : Prop :=
  ∀ (q : Word) (s : State),
    (encode (.isqrt q)).toNat = 0x9000000000000000 + q.toNat ∧
    exec (.isqrt q) s = .next { s with out := s.out ++ [.res (BitVec.ofNat 32 (Nat.sqrt q.toNat))] }

/-- R103, R104, R105: FMT, its word, and its whole effect. With good operands it drives the string
whose character for position j, from D - 1 down to 0, is a space when j > P and v < 10^j and else the
digit, with a point after position P when P ≥ 1. Operands out of range record FMT_RANGE. -/
def Obligations.FormatDrivesTheString : Prop :=
  ∀ (v : Word) (p d : Byte) (s : State),
    (encode (.fmt v p d)).toNat =
      0x9800000000000000 + d.toNat * 2 ^ 40 + p.toNat * 2 ^ 32 + v.toNat ∧
    (1 ≤ d.toNat → d.toNat ≤ 6 → p.toNat < d.toNat → v.toNat < 10 ^ d.toNat →
      exec (.fmt v p d) s = .next { s with
        out := s.out ++ [.str ((List.range d.toNat).reverse.flatMap fun j =>
          (if p.toNat < j ∧ v.toNat < 10 ^ j then 0x20
            else BitVec.ofNat 8 (0x30 + v.toNat / 10 ^ j % 10)) ::
          (if j = p.toNat ∧ 1 ≤ p.toNat then [0x2E] else []))] }) ∧
    (d.toNat < 1 ∨ 6 < d.toNat ∨ 6 < p.toNat ∨ d.toNat ≤ p.toNat ∨ 10 ^ d.toNat ≤ v.toNat →
      exec (.fmt v p d) s =
        .next { s with fault := some ⟨.fmtRange, .request (encode (.fmt v p d))⟩ })

/-- R106: deleting the spaces and the point from fmt(v, P, D) leaves decimal digits only, as many as
the larger of v's own digits and P + 1, and read as a decimal number they are v. -/
def Obligations.FormatRoundTrip : Prop :=
  ∀ v p d : Nat, 1 ≤ d → d ≤ 6 → p < d → v < 10 ^ d →
    decimalValue (fmtString v p d) = v ∧
    ((fmtString v p d).filter fun ch => ch ≠ 0x20 ∧ ch ≠ 0x2E).length =
      max (Nat.digits 10 v).length (p + 1) ∧
    ∀ ch ∈ fmtString v p d, ch = 0x20 ∨ ch = 0x2E ∨ 0x30 ≤ ch.toNat ∧ ch.toNat ≤ 0x39
end

