-- ==== Sys2Proof/Laws/State.lean ====
section
/-! SUPPORT. One lemma per field per update of State: what each named update leaves and what it writes.
Every one is true by rfl and is a simp lemma, so no proof unfolds a record update. -/

namespace Sys2Proof.Machine

open Sys2Proof

section
variable (s : State) (x : Framing)
@[simp] theorem State.withFrm_cfg : (s.withFrm x).cfg = s.cfg := rfl
@[simp] theorem State.withFrm_frm : (s.withFrm x).frm = x := rfl
@[simp] theorem State.withFrm_mem : (s.withFrm x).mem = s.mem := rfl
@[simp] theorem State.withFrm_status : (s.withFrm x).status = s.status := rfl
@[simp] theorem State.withFrm_fault : (s.withFrm x).fault = s.fault := rfl
@[simp] theorem State.withFrm_irq : (s.withFrm x).irq = s.irq := rfl
@[simp] theorem State.withFrm_ct : (s.withFrm x).ct = s.ct := rfl
@[simp] theorem State.withFrm_rbs : (s.withFrm x).rbs = s.rbs := rfl
@[simp] theorem State.withFrm_snap : (s.withFrm x).snap = s.snap := rfl
@[simp] theorem State.withFrm_op : (s.withFrm x).op = s.op := rfl
@[simp] theorem State.withFrm_moves : (s.withFrm x).moves = s.moves := rfl
@[simp] theorem State.withFrm_picks : (s.withFrm x).picks = s.picks := rfl
@[simp] theorem State.withFrm_out : (s.withFrm x).out = s.out := rfl
@[simp] theorem State.withFrm_freeCount : (s.withFrm x).freeCount = s.freeCount := rfl
end

section
variable (s : State) (x : Memory)
@[simp] theorem State.withMem_cfg : (s.withMem x).cfg = s.cfg := rfl
@[simp] theorem State.withMem_frm : (s.withMem x).frm = s.frm := rfl
@[simp] theorem State.withMem_mem : (s.withMem x).mem = x := rfl
@[simp] theorem State.withMem_status : (s.withMem x).status = s.status := rfl
@[simp] theorem State.withMem_fault : (s.withMem x).fault = s.fault := rfl
@[simp] theorem State.withMem_irq : (s.withMem x).irq = s.irq := rfl
@[simp] theorem State.withMem_ct : (s.withMem x).ct = s.ct := rfl
@[simp] theorem State.withMem_rbs : (s.withMem x).rbs = s.rbs := rfl
@[simp] theorem State.withMem_snap : (s.withMem x).snap = s.snap := rfl
@[simp] theorem State.withMem_op : (s.withMem x).op = s.op := rfl
@[simp] theorem State.withMem_moves : (s.withMem x).moves = s.moves := rfl
@[simp] theorem State.withMem_picks : (s.withMem x).picks = s.picks := rfl
@[simp] theorem State.withMem_out : (s.withMem x).out = s.out := rfl
@[simp] theorem State.withMem_freeCount : (s.withMem x).freeCount = s.freeCount := rfl
end

section
variable (s : State) (x : Status)
@[simp] theorem State.withStatus_cfg : (s.withStatus x).cfg = s.cfg := rfl
@[simp] theorem State.withStatus_frm : (s.withStatus x).frm = s.frm := rfl
@[simp] theorem State.withStatus_mem : (s.withStatus x).mem = s.mem := rfl
@[simp] theorem State.withStatus_status : (s.withStatus x).status = x := rfl
@[simp] theorem State.withStatus_fault : (s.withStatus x).fault = s.fault := rfl
@[simp] theorem State.withStatus_irq : (s.withStatus x).irq = s.irq := rfl
@[simp] theorem State.withStatus_ct : (s.withStatus x).ct = s.ct := rfl
@[simp] theorem State.withStatus_rbs : (s.withStatus x).rbs = s.rbs := rfl
@[simp] theorem State.withStatus_snap : (s.withStatus x).snap = s.snap := rfl
@[simp] theorem State.withStatus_op : (s.withStatus x).op = s.op := rfl
@[simp] theorem State.withStatus_moves : (s.withStatus x).moves = s.moves := rfl
@[simp] theorem State.withStatus_picks : (s.withStatus x).picks = s.picks := rfl
@[simp] theorem State.withStatus_out : (s.withStatus x).out = s.out := rfl
@[simp] theorem State.withStatus_freeCount : (s.withStatus x).freeCount = s.freeCount := rfl
end

section
variable (s : State) (x : Option FaultRecord)
@[simp] theorem State.withFault_cfg : (s.withFault x).cfg = s.cfg := rfl
@[simp] theorem State.withFault_frm : (s.withFault x).frm = s.frm := rfl
@[simp] theorem State.withFault_mem : (s.withFault x).mem = s.mem := rfl
@[simp] theorem State.withFault_status : (s.withFault x).status = s.status := rfl
@[simp] theorem State.withFault_fault : (s.withFault x).fault = x := rfl
@[simp] theorem State.withFault_irq : (s.withFault x).irq = s.irq := rfl
@[simp] theorem State.withFault_ct : (s.withFault x).ct = s.ct := rfl
@[simp] theorem State.withFault_rbs : (s.withFault x).rbs = s.rbs := rfl
@[simp] theorem State.withFault_snap : (s.withFault x).snap = s.snap := rfl
@[simp] theorem State.withFault_op : (s.withFault x).op = s.op := rfl
@[simp] theorem State.withFault_moves : (s.withFault x).moves = s.moves := rfl
@[simp] theorem State.withFault_picks : (s.withFault x).picks = s.picks := rfl
@[simp] theorem State.withFault_out : (s.withFault x).out = s.out := rfl
@[simp] theorem State.withFault_freeCount : (s.withFault x).freeCount = s.freeCount := rfl
end

section
variable (s : State) (x : IrqCtl)
@[simp] theorem State.withIrq_cfg : (s.withIrq x).cfg = s.cfg := rfl
@[simp] theorem State.withIrq_frm : (s.withIrq x).frm = s.frm := rfl
@[simp] theorem State.withIrq_mem : (s.withIrq x).mem = s.mem := rfl
@[simp] theorem State.withIrq_status : (s.withIrq x).status = s.status := rfl
@[simp] theorem State.withIrq_fault : (s.withIrq x).fault = s.fault := rfl
@[simp] theorem State.withIrq_irq : (s.withIrq x).irq = x := rfl
@[simp] theorem State.withIrq_ct : (s.withIrq x).ct = s.ct := rfl
@[simp] theorem State.withIrq_rbs : (s.withIrq x).rbs = s.rbs := rfl
@[simp] theorem State.withIrq_snap : (s.withIrq x).snap = s.snap := rfl
@[simp] theorem State.withIrq_op : (s.withIrq x).op = s.op := rfl
@[simp] theorem State.withIrq_moves : (s.withIrq x).moves = s.moves := rfl
@[simp] theorem State.withIrq_picks : (s.withIrq x).picks = s.picks := rfl
@[simp] theorem State.withIrq_out : (s.withIrq x).out = s.out := rfl
@[simp] theorem State.withIrq_freeCount : (s.withIrq x).freeCount = s.freeCount := rfl
end

section
variable (s : State) (x : CounterTimer)
@[simp] theorem State.withCt_cfg : (s.withCt x).cfg = s.cfg := rfl
@[simp] theorem State.withCt_frm : (s.withCt x).frm = s.frm := rfl
@[simp] theorem State.withCt_mem : (s.withCt x).mem = s.mem := rfl
@[simp] theorem State.withCt_status : (s.withCt x).status = s.status := rfl
@[simp] theorem State.withCt_fault : (s.withCt x).fault = s.fault := rfl
@[simp] theorem State.withCt_irq : (s.withCt x).irq = s.irq := rfl
@[simp] theorem State.withCt_ct : (s.withCt x).ct = x := rfl
@[simp] theorem State.withCt_rbs : (s.withCt x).rbs = s.rbs := rfl
@[simp] theorem State.withCt_snap : (s.withCt x).snap = s.snap := rfl
@[simp] theorem State.withCt_op : (s.withCt x).op = s.op := rfl
@[simp] theorem State.withCt_moves : (s.withCt x).moves = s.moves := rfl
@[simp] theorem State.withCt_picks : (s.withCt x).picks = s.picks := rfl
@[simp] theorem State.withCt_out : (s.withCt x).out = s.out := rfl
@[simp] theorem State.withCt_freeCount : (s.withCt x).freeCount = s.freeCount := rfl
end

section
variable (s : State) (x : RingStats)
@[simp] theorem State.withRbs_cfg : (s.withRbs x).cfg = s.cfg := rfl
@[simp] theorem State.withRbs_frm : (s.withRbs x).frm = s.frm := rfl
@[simp] theorem State.withRbs_mem : (s.withRbs x).mem = s.mem := rfl
@[simp] theorem State.withRbs_status : (s.withRbs x).status = s.status := rfl
@[simp] theorem State.withRbs_fault : (s.withRbs x).fault = s.fault := rfl
@[simp] theorem State.withRbs_irq : (s.withRbs x).irq = s.irq := rfl
@[simp] theorem State.withRbs_ct : (s.withRbs x).ct = s.ct := rfl
@[simp] theorem State.withRbs_rbs : (s.withRbs x).rbs = x := rfl
@[simp] theorem State.withRbs_snap : (s.withRbs x).snap = s.snap := rfl
@[simp] theorem State.withRbs_op : (s.withRbs x).op = s.op := rfl
@[simp] theorem State.withRbs_moves : (s.withRbs x).moves = s.moves := rfl
@[simp] theorem State.withRbs_picks : (s.withRbs x).picks = s.picks := rfl
@[simp] theorem State.withRbs_out : (s.withRbs x).out = s.out := rfl
@[simp] theorem State.withRbs_freeCount : (s.withRbs x).freeCount = s.freeCount := rfl
end

section
variable (s : State) (x : Snapshot)
@[simp] theorem State.withSnap_cfg : (s.withSnap x).cfg = s.cfg := rfl
@[simp] theorem State.withSnap_frm : (s.withSnap x).frm = s.frm := rfl
@[simp] theorem State.withSnap_mem : (s.withSnap x).mem = s.mem := rfl
@[simp] theorem State.withSnap_status : (s.withSnap x).status = s.status := rfl
@[simp] theorem State.withSnap_fault : (s.withSnap x).fault = s.fault := rfl
@[simp] theorem State.withSnap_irq : (s.withSnap x).irq = s.irq := rfl
@[simp] theorem State.withSnap_ct : (s.withSnap x).ct = s.ct := rfl
@[simp] theorem State.withSnap_rbs : (s.withSnap x).rbs = s.rbs := rfl
@[simp] theorem State.withSnap_snap : (s.withSnap x).snap = x := rfl
@[simp] theorem State.withSnap_op : (s.withSnap x).op = s.op := rfl
@[simp] theorem State.withSnap_moves : (s.withSnap x).moves = s.moves := rfl
@[simp] theorem State.withSnap_picks : (s.withSnap x).picks = s.picks := rfl
@[simp] theorem State.withSnap_out : (s.withSnap x).out = s.out := rfl
@[simp] theorem State.withSnap_freeCount : (s.withSnap x).freeCount = s.freeCount := rfl
end

section
variable (s : State) (x : OpState)
@[simp] theorem State.withOp_cfg : (s.withOp x).cfg = s.cfg := rfl
@[simp] theorem State.withOp_frm : (s.withOp x).frm = s.frm := rfl
@[simp] theorem State.withOp_mem : (s.withOp x).mem = s.mem := rfl
@[simp] theorem State.withOp_status : (s.withOp x).status = s.status := rfl
@[simp] theorem State.withOp_fault : (s.withOp x).fault = s.fault := rfl
@[simp] theorem State.withOp_irq : (s.withOp x).irq = s.irq := rfl
@[simp] theorem State.withOp_ct : (s.withOp x).ct = s.ct := rfl
@[simp] theorem State.withOp_rbs : (s.withOp x).rbs = s.rbs := rfl
@[simp] theorem State.withOp_snap : (s.withOp x).snap = s.snap := rfl
@[simp] theorem State.withOp_op : (s.withOp x).op = x := rfl
@[simp] theorem State.withOp_moves : (s.withOp x).moves = s.moves := rfl
@[simp] theorem State.withOp_picks : (s.withOp x).picks = s.picks := rfl
@[simp] theorem State.withOp_out : (s.withOp x).out = s.out := rfl
@[simp] theorem State.withOp_freeCount : (s.withOp x).freeCount = s.freeCount := rfl
end

section
variable (s : State) (x : List Move)
@[simp] theorem State.withMoves_cfg : (s.withMoves x).cfg = s.cfg := rfl
@[simp] theorem State.withMoves_frm : (s.withMoves x).frm = s.frm := rfl
@[simp] theorem State.withMoves_mem : (s.withMoves x).mem = s.mem := rfl
@[simp] theorem State.withMoves_status : (s.withMoves x).status = s.status := rfl
@[simp] theorem State.withMoves_fault : (s.withMoves x).fault = s.fault := rfl
@[simp] theorem State.withMoves_irq : (s.withMoves x).irq = s.irq := rfl
@[simp] theorem State.withMoves_ct : (s.withMoves x).ct = s.ct := rfl
@[simp] theorem State.withMoves_rbs : (s.withMoves x).rbs = s.rbs := rfl
@[simp] theorem State.withMoves_snap : (s.withMoves x).snap = s.snap := rfl
@[simp] theorem State.withMoves_op : (s.withMoves x).op = s.op := rfl
@[simp] theorem State.withMoves_moves : (s.withMoves x).moves = x := rfl
@[simp] theorem State.withMoves_picks : (s.withMoves x).picks = s.picks := rfl
@[simp] theorem State.withMoves_out : (s.withMoves x).out = s.out := rfl
@[simp] theorem State.withMoves_freeCount : (s.withMoves x).freeCount = s.freeCount := rfl
end

section
variable (s : State) (x : List Nat)
@[simp] theorem State.withPicks_cfg : (s.withPicks x).cfg = s.cfg := rfl
@[simp] theorem State.withPicks_frm : (s.withPicks x).frm = s.frm := rfl
@[simp] theorem State.withPicks_mem : (s.withPicks x).mem = s.mem := rfl
@[simp] theorem State.withPicks_status : (s.withPicks x).status = s.status := rfl
@[simp] theorem State.withPicks_fault : (s.withPicks x).fault = s.fault := rfl
@[simp] theorem State.withPicks_irq : (s.withPicks x).irq = s.irq := rfl
@[simp] theorem State.withPicks_ct : (s.withPicks x).ct = s.ct := rfl
@[simp] theorem State.withPicks_rbs : (s.withPicks x).rbs = s.rbs := rfl
@[simp] theorem State.withPicks_snap : (s.withPicks x).snap = s.snap := rfl
@[simp] theorem State.withPicks_op : (s.withPicks x).op = s.op := rfl
@[simp] theorem State.withPicks_moves : (s.withPicks x).moves = s.moves := rfl
@[simp] theorem State.withPicks_picks : (s.withPicks x).picks = x := rfl
@[simp] theorem State.withPicks_out : (s.withPicks x).out = s.out := rfl
@[simp] theorem State.withPicks_freeCount : (s.withPicks x).freeCount = s.freeCount := rfl
end

section
variable (s : State) (x : List Output)
@[simp] theorem State.withOut_cfg : (s.withOut x).cfg = s.cfg := rfl
@[simp] theorem State.withOut_frm : (s.withOut x).frm = s.frm := rfl
@[simp] theorem State.withOut_mem : (s.withOut x).mem = s.mem := rfl
@[simp] theorem State.withOut_status : (s.withOut x).status = s.status := rfl
@[simp] theorem State.withOut_fault : (s.withOut x).fault = s.fault := rfl
@[simp] theorem State.withOut_irq : (s.withOut x).irq = s.irq := rfl
@[simp] theorem State.withOut_ct : (s.withOut x).ct = s.ct := rfl
@[simp] theorem State.withOut_rbs : (s.withOut x).rbs = s.rbs := rfl
@[simp] theorem State.withOut_snap : (s.withOut x).snap = s.snap := rfl
@[simp] theorem State.withOut_op : (s.withOut x).op = s.op := rfl
@[simp] theorem State.withOut_moves : (s.withOut x).moves = s.moves := rfl
@[simp] theorem State.withOut_picks : (s.withOut x).picks = s.picks := rfl
@[simp] theorem State.withOut_out : (s.withOut x).out = x := rfl
@[simp] theorem State.withOut_freeCount : (s.withOut x).freeCount = s.freeCount := rfl
end

section
variable (s : State) (x : Nat)
@[simp] theorem State.withFreeCount_cfg : (s.withFreeCount x).cfg = s.cfg := rfl
@[simp] theorem State.withFreeCount_frm : (s.withFreeCount x).frm = s.frm := rfl
@[simp] theorem State.withFreeCount_mem : (s.withFreeCount x).mem = s.mem := rfl
@[simp] theorem State.withFreeCount_status : (s.withFreeCount x).status = s.status := rfl
@[simp] theorem State.withFreeCount_fault : (s.withFreeCount x).fault = s.fault := rfl
@[simp] theorem State.withFreeCount_irq : (s.withFreeCount x).irq = s.irq := rfl
@[simp] theorem State.withFreeCount_ct : (s.withFreeCount x).ct = s.ct := rfl
@[simp] theorem State.withFreeCount_rbs : (s.withFreeCount x).rbs = s.rbs := rfl
@[simp] theorem State.withFreeCount_snap : (s.withFreeCount x).snap = s.snap := rfl
@[simp] theorem State.withFreeCount_op : (s.withFreeCount x).op = s.op := rfl
@[simp] theorem State.withFreeCount_moves : (s.withFreeCount x).moves = s.moves := rfl
@[simp] theorem State.withFreeCount_picks : (s.withFreeCount x).picks = s.picks := rfl
@[simp] theorem State.withFreeCount_out : (s.withFreeCount x).out = s.out := rfl
@[simp] theorem State.withFreeCount_freeCount : (s.withFreeCount x).freeCount = x := rfl
end

section
variable (s : State) (b : Bool)
@[simp] theorem State.setIe_cfg : (s.setIe b).cfg = s.cfg := rfl
@[simp] theorem State.setIe_frm : (s.setIe b).frm = s.frm := rfl
@[simp] theorem State.setIe_mem : (s.setIe b).mem = s.mem := rfl
@[simp] theorem State.setIe_status : (s.setIe b).status = s.status := rfl
@[simp] theorem State.setIe_fault : (s.setIe b).fault = s.fault := rfl
@[simp] theorem State.setIe_irq : (s.setIe b).irq = { s.irq with ie := b } := rfl
@[simp] theorem State.setIe_ct : (s.setIe b).ct = s.ct := rfl
@[simp] theorem State.setIe_rbs : (s.setIe b).rbs = s.rbs := rfl
@[simp] theorem State.setIe_snap : (s.setIe b).snap = s.snap := rfl
@[simp] theorem State.setIe_op : (s.setIe b).op = s.op := rfl
@[simp] theorem State.setIe_moves : (s.setIe b).moves = s.moves := rfl
@[simp] theorem State.setIe_picks : (s.setIe b).picks = s.picks := rfl
@[simp] theorem State.setIe_out : (s.setIe b).out = s.out := rfl
@[simp] theorem State.setIe_freeCount : (s.setIe b).freeCount = s.freeCount := rfl
end

section
variable (s : State) (o : Output)
@[simp] theorem State.emit_cfg : (s.emit o).cfg = s.cfg := rfl
@[simp] theorem State.emit_frm : (s.emit o).frm = s.frm := rfl
@[simp] theorem State.emit_mem : (s.emit o).mem = s.mem := rfl
@[simp] theorem State.emit_status : (s.emit o).status = s.status := rfl
@[simp] theorem State.emit_fault : (s.emit o).fault = s.fault := rfl
@[simp] theorem State.emit_irq : (s.emit o).irq = s.irq := rfl
@[simp] theorem State.emit_ct : (s.emit o).ct = s.ct := rfl
@[simp] theorem State.emit_rbs : (s.emit o).rbs = s.rbs := rfl
@[simp] theorem State.emit_snap : (s.emit o).snap = s.snap := rfl
@[simp] theorem State.emit_op : (s.emit o).op = s.op := rfl
@[simp] theorem State.emit_moves : (s.emit o).moves = s.moves := rfl
@[simp] theorem State.emit_picks : (s.emit o).picks = s.picks := rfl
@[simp] theorem State.emit_out : (s.emit o).out = s.out ++ [o] := rfl
@[simp] theorem State.emit_freeCount : (s.emit o).freeCount = s.freeCount := rfl
end

section
variable (s : State) (v : Word)
@[simp] theorem State.driveRes_cfg : (s.driveRes v).cfg = s.cfg := rfl
@[simp] theorem State.driveRes_frm : (s.driveRes v).frm = s.frm := rfl
@[simp] theorem State.driveRes_mem : (s.driveRes v).mem = s.mem := rfl
@[simp] theorem State.driveRes_status : (s.driveRes v).status = s.status := rfl
@[simp] theorem State.driveRes_fault : (s.driveRes v).fault = s.fault := rfl
@[simp] theorem State.driveRes_irq : (s.driveRes v).irq = s.irq := rfl
@[simp] theorem State.driveRes_ct : (s.driveRes v).ct = s.ct := rfl
@[simp] theorem State.driveRes_rbs : (s.driveRes v).rbs = s.rbs := rfl
@[simp] theorem State.driveRes_snap : (s.driveRes v).snap = s.snap := rfl
@[simp] theorem State.driveRes_op : (s.driveRes v).op = s.op := rfl
@[simp] theorem State.driveRes_moves : (s.driveRes v).moves = s.moves := rfl
@[simp] theorem State.driveRes_picks : (s.driveRes v).picks = s.picks := rfl
@[simp] theorem State.driveRes_out : (s.driveRes v).out = s.out ++ [.res v] := rfl
@[simp] theorem State.driveRes_freeCount : (s.driveRes v).freeCount = s.freeCount := rfl
end

section
variable (s : State)
@[simp] theorem State.usePick_cfg : s.usePick.cfg = s.cfg := rfl
@[simp] theorem State.usePick_frm : s.usePick.frm = s.frm := rfl
@[simp] theorem State.usePick_mem : s.usePick.mem = s.mem := rfl
@[simp] theorem State.usePick_status : s.usePick.status = s.status := rfl
@[simp] theorem State.usePick_fault : s.usePick.fault = s.fault := rfl
@[simp] theorem State.usePick_irq : s.usePick.irq = s.irq := rfl
@[simp] theorem State.usePick_ct : s.usePick.ct = s.ct := rfl
@[simp] theorem State.usePick_rbs : s.usePick.rbs = s.rbs := rfl
@[simp] theorem State.usePick_snap : s.usePick.snap = s.snap := rfl
@[simp] theorem State.usePick_op : s.usePick.op = s.op := rfl
@[simp] theorem State.usePick_moves : s.usePick.moves = s.moves := rfl
@[simp] theorem State.usePick_picks : s.usePick.picks = s.picks.tail := rfl
@[simp] theorem State.usePick_out : s.usePick.out = s.out := rfl
@[simp] theorem State.usePick_freeCount : s.usePick.freeCount = s.freeCount := rfl
end

section
variable (s : State) (rest : List Move)
@[simp] theorem State.beginMove_cfg : (s.beginMove rest).cfg = s.cfg := rfl
@[simp] theorem State.beginMove_frm : (s.beginMove rest).frm = s.frm := rfl
@[simp] theorem State.beginMove_mem : (s.beginMove rest).mem = s.mem := rfl
@[simp] theorem State.beginMove_status : (s.beginMove rest).status = s.status := rfl
@[simp] theorem State.beginMove_fault : (s.beginMove rest).fault = s.fault := rfl
@[simp] theorem State.beginMove_irq : (s.beginMove rest).irq = s.irq := rfl
@[simp] theorem State.beginMove_ct : (s.beginMove rest).ct = s.ct := rfl
@[simp] theorem State.beginMove_rbs : (s.beginMove rest).rbs = s.rbs := rfl
@[simp] theorem State.beginMove_snap : (s.beginMove rest).snap = s.snap := rfl
@[simp] theorem State.beginMove_op : (s.beginMove rest).op = s.op := rfl
@[simp] theorem State.beginMove_moves : (s.beginMove rest).moves = rest := rfl
@[simp] theorem State.beginMove_picks : (s.beginMove rest).picks = s.picks := rfl
@[simp] theorem State.beginMove_out : (s.beginMove rest).out = [] := rfl
@[simp] theorem State.beginMove_freeCount : (s.beginMove rest).freeCount = s.freeCount := rfl
end

section
variable (s : State) (c : RestartCause)
@[simp] theorem State.diagnoseAndRestart_cfg :
    (s.diagnoseAndRestart c).cfg = s.cfg := rfl
@[simp] theorem State.diagnoseAndRestart_frm :
    (s.diagnoseAndRestart c).frm = s.frm := rfl
@[simp] theorem State.diagnoseAndRestart_mem :
    (s.diagnoseAndRestart c).mem = s.mem := rfl
@[simp] theorem State.diagnoseAndRestart_status :
    (s.diagnoseAndRestart c).status = ⟨true, c⟩ := rfl
@[simp] theorem State.diagnoseAndRestart_fault :
    (s.diagnoseAndRestart c).fault = s.fault := rfl
@[simp] theorem State.diagnoseAndRestart_irq :
    (s.diagnoseAndRestart c).irq = s.irq := rfl
@[simp] theorem State.diagnoseAndRestart_ct :
    (s.diagnoseAndRestart c).ct = s.ct := rfl
@[simp] theorem State.diagnoseAndRestart_rbs :
    (s.diagnoseAndRestart c).rbs = s.rbs := rfl
@[simp] theorem State.diagnoseAndRestart_snap :
    (s.diagnoseAndRestart c).snap = s.snap := rfl
@[simp] theorem State.diagnoseAndRestart_op :
    (s.diagnoseAndRestart c).op = s.op := rfl
@[simp] theorem State.diagnoseAndRestart_moves :
    (s.diagnoseAndRestart c).moves = s.moves := rfl
@[simp] theorem State.diagnoseAndRestart_picks :
    (s.diagnoseAndRestart c).picks = s.picks := rfl
@[simp] theorem State.diagnoseAndRestart_out :
    (s.diagnoseAndRestart c).out = s.out ++ [.diag c] ++ [.restart c] := rfl
@[simp] theorem State.diagnoseAndRestart_freeCount :
    (s.diagnoseAndRestart c).freeCount = s.freeCount := rfl
end

section
variable (s : State)
@[simp] theorem State.forgetPayload_cfg :
    s.forgetPayload.cfg = s.cfg := rfl
@[simp] theorem State.forgetPayload_frm :
    s.forgetPayload.frm = s.frm := rfl
@[simp] theorem State.forgetPayload_mem :
    s.forgetPayload.mem = { s.mem with pbuf := freeBytes s.freeCount s.cfg.maxPayload } := rfl
@[simp] theorem State.forgetPayload_status :
    s.forgetPayload.status = s.status := rfl
@[simp] theorem State.forgetPayload_fault :
    s.forgetPayload.fault = s.fault := rfl
@[simp] theorem State.forgetPayload_irq :
    s.forgetPayload.irq = s.irq := rfl
@[simp] theorem State.forgetPayload_ct :
    s.forgetPayload.ct = s.ct := rfl
@[simp] theorem State.forgetPayload_rbs :
    s.forgetPayload.rbs = s.rbs := rfl
@[simp] theorem State.forgetPayload_snap :
    s.forgetPayload.snap = s.snap := rfl
@[simp] theorem State.forgetPayload_op :
    s.forgetPayload.op = s.op := rfl
@[simp] theorem State.forgetPayload_moves :
    s.forgetPayload.moves = s.moves := rfl
@[simp] theorem State.forgetPayload_picks :
    s.forgetPayload.picks = s.picks := rfl
@[simp] theorem State.forgetPayload_out :
    s.forgetPayload.out = s.out := rfl
@[simp] theorem State.forgetPayload_freeCount :
    s.forgetPayload.freeCount = s.freeCount + s.cfg.maxPayload := rfl
end

end Sys2Proof.Machine
end

