-- ==== Sys2Proof/Laws/Ops.lean ====
section
/-! SUPPORT. What each shared operation can do, said once: raising a fault, the fatal restart, critical
sections, handler entry and return, byte-wise reads, the push, the checksum, the RESET event, and the
inversion of a step into the move it runs. -/

namespace Sys2Proof.Machine

open Sys2Proof

/-! ### Outcomes -/

@[simp] theorem next_inj {s t : State} : (Host.Outcome.next s : Result) = .next t ↔ s = t :=
  ⟨fun h => by cases h; rfl, fun h => h ▸ rfl⟩

/-- A raised fault is a next state that differs from s in FAULT alone (R251, R255). -/
theorem raiseFault_next {code : FaultCode} {o : Origin} {s t : State} :
    raiseFault code o s = .next t ↔ t = s.withFault (some ⟨code, o⟩) := by
  unfold raiseFault; rw [next_inj, eq_comm]

/-! ### Critical sections and handlers (R65, R153) -/

/-- A critical section whose access leaves the interrupt state alone is that access. -/
theorem critical_of_irq (access : State → State) (s : State)
    (h : (access (s.setIe false)).irq = { s.irq with ie := false }) :
    critical access s = (access (s.setIe false)).withIrq s.irq := by
  show (access (s.setIe false)).withIrq { (access (s.setIe false)).irq with ie := s.irq.ie } = _
  rw [h]

@[simp] theorem critical_ie (access : State → State) (s : State) :
    (critical access s).irq.ie = s.irq.ie := rfl

@[simp] theorem enterHandler_eq (s : State) : enterHandler s = s.setIe false := rfl

@[simp] theorem returnFromHandler_eq (s : State) : returnFromHandler s = s.setIe true := rfl

/-! ### The push (R200) -/

section
variable (count : Nat) (s : State)
@[simp] theorem push_cfg : (push count s).cfg = s.cfg := rfl
@[simp] theorem push_frm : (push count s).frm = s.frm := rfl
@[simp] theorem push_pbuf : (push count s).mem.pbuf = s.mem.pbuf := rfl
@[simp] theorem push_rb : (push count s).mem.rb =
    s.mem.rb.set ((s.rbs.cursor.toNat + 1) % s.cfg.cap) count := rfl
@[simp] theorem push_status : (push count s).status = s.status := rfl
@[simp] theorem push_fault : (push count s).fault = s.fault := rfl
@[simp] theorem push_irq : (push count s).irq = s.irq := rfl
@[simp] theorem push_ct : (push count s).ct = s.ct := rfl
@[simp] theorem push_range : (push count s).rbs.range = s.rbs.range := rfl
@[simp] theorem push_cCursor : (push count s).rbs.cCursor = s.rbs.cCursor := rfl
@[simp] theorem push_cValid : (push count s).rbs.cValid = s.rbs.cValid := rfl
@[simp] theorem push_snap : (push count s).snap = s.snap := rfl
@[simp] theorem push_op : (push count s).op = s.op := rfl
@[simp] theorem push_moves : (push count s).moves = s.moves := rfl
@[simp] theorem push_picks : (push count s).picks = s.picks := rfl
@[simp] theorem push_out : (push count s).out = s.out := rfl
@[simp] theorem push_freeCount : (push count s).freeCount = s.freeCount := rfl
end

/-- The cursor after a push, as a number: CAP ≤ 255 fits the register (R7, R40). -/
theorem push_cursor_toNat (count : Nat) (s : State) (h : 0 < s.cfg.cap ∧ s.cfg.cap ≤ 255) :
    (push count s).rbs.cursor.toNat = (s.rbs.cursor.toNat + 1) % s.cfg.cap := by
  have := Nat.mod_lt (s.rbs.cursor.toNat + 1) h.1
  show (BitVec.ofNat 8 _).toNat = _
  rw [BitVec.toNat_ofNat, Nat.mod_eq_of_lt]
  omega

/-- The valid count after a push, as a number (R41). -/
theorem push_valid_toNat (count : Nat) (s : State) (h : s.cfg.cap ≤ 255) :
    (push count s).rbs.valid.toNat = min (s.rbs.valid.toNat + 1) s.cfg.cap := by
  show (BitVec.ofNat 8 _).toNat = _
  rw [BitVec.toNat_ofNat, Nat.mod_eq_of_lt]
  omega

/-! ### Byte-wise reads (R64) -/

/-- A choice always selects a byte that is left. -/
theorem ByteAcc.choose_mem (a : ByteAcc) (pick : Nat) (h : a.left ≠ []) : a.choose pick ∈ a.left := by
  have hl : pick % a.left.length < a.left.length := Nat.mod_lt _ (List.length_pos_iff.2 h)
  unfold ByteAcc.choose
  rw [List.getD_eq_getElem _ _ hl]
  exact List.getElem_mem hl

/-- A byte read uses up one byte. -/
theorem ByteAcc.read_left_length (a : ByteAcc) (v pick : Nat) (h : a.left ≠ []) :
    (a.read v pick).left.length = a.left.length - 1 :=
  List.length_erase_of_mem (a.choose_mem pick h)

/-- The bytes of v at the indices left, each in its place. -/
def bytesAt (v : Nat) (left : List Nat) : Nat := (left.map fun k => byteOf v k * 256 ^ k).sum

/-- A byte read moves one byte from those left into the value. -/
theorem ByteAcc.read_value (a : ByteAcc) (v pick : Nat) (h : a.left ≠ []) :
    (a.read v pick).value + bytesAt v (a.read v pick).left = a.value + bytesAt v a.left := by
  have hp := List.perm_cons_erase (a.choose_mem pick h)
  have hs : bytesAt v a.left = byteOf v (a.choose pick) * 256 ^ a.choose pick +
      bytesAt v (a.left.erase (a.choose pick)) := by
    unfold bytesAt
    rw [(hp.map _).sum_eq]
    simp
  show a.value + byteOf v (a.choose pick) * 256 ^ a.choose pick +
    bytesAt v (a.left.erase (a.choose pick)) = _
  omega

/-- All n bytes of v, each in its place, are v cut to n bytes (R9). -/
theorem bytesAt_range (v n : Nat) : bytesAt v (List.range n) = v % 256 ^ n := by
  induction n with
  | zero => simp [bytesAt, Nat.mod_one]
  | succ n ih =>
    have h : bytesAt v (List.range (n + 1)) =
        bytesAt v (List.range n) + byteOf v n * 256 ^ n := by
      simp [bytesAt, List.range_succ]
    rw [h, ih, byteOf, Nat.pow_succ, Nat.mod_mul, Nat.mul_comm (v / 256 ^ n % 256)]

/-- The bytes of a width-bit value: 256 ^ (width / 8) is 2 ^ width for a width of whole bytes. -/
theorem pow_bytes (w : Nat) (h : w % 8 = 0) : 256 ^ (w / 8) = 2 ^ w := by
  rw [show (256 : Nat) = 2 ^ 8 from rfl, ← Nat.pow_mul]
  congr 1
  omega

/-! ### The frame (R88, R89) -/

/-- A frame is 7 + len bytes long (R89). -/
theorem wireFrame_length (c : Config) (cmd : Byte) (payload : List Byte) :
    (wireFrame c cmd payload).length = 7 + payload.length := by
  simp [wireFrame, coveredBytes]; omega

/-! ### The RESET event (R280) -/

section
variable (s : State)
@[simp] theorem takeReset_cfg : (takeReset s).cfg = s.cfg := rfl
@[simp] theorem takeReset_status : (takeReset s).status = ⟨false, .none⟩ := rfl
@[simp] theorem takeReset_fault : (takeReset s).fault = s.fault := rfl
@[simp] theorem takeReset_irq : (takeReset s).irq = ⟨false, false, false⟩ := rfl
@[simp] theorem takeReset_ct : (takeReset s).ct = ⟨0, 0, 1, .idle, 0, false⟩ := rfl
@[simp] theorem takeReset_rbs : (takeReset s).rbs = (State.resetWith s.cfg).rbs := rfl
@[simp] theorem takeReset_snap : (takeReset s).snap = Snapshot.zero := rfl
@[simp] theorem takeReset_op : (takeReset s).op = .idle := rfl
@[simp] theorem takeReset_moves : (takeReset s).moves = s.moves := rfl
@[simp] theorem takeReset_picks : (takeReset s).picks = s.picks := rfl
@[simp] theorem takeReset_out : (takeReset s).out = s.out := rfl
end

/-! ### The configuration (R7) -/

/-- The constraints of R7, one by one. -/
theorem config_wf_iff (c : Config) : c.wf = true ↔
    (1 ≤ c.maxPayload ∧ c.maxPayload ≤ 256 ∧ c.pmin < c.maxPayload) ∧ c.chkInit < 2 ^ c.cw ∧
    (8 ≤ c.pcw ∧ c.pcw ≤ 32 ∧ c.pcw % 8 = 0) ∧ (8 ≤ c.tw ∧ c.tw ≤ 32 ∧ c.tw % 8 = 0) ∧
    (1 ≤ c.cap ∧ c.cap ≤ 255 ∧ 1 ≤ c.short ∧ c.short ≤ c.cap ∧ c.short ≤ c.wHigh ∧
      c.wHigh ≤ c.cap) ∧
    (c.tDown < c.tUp ∧ c.tUp < 2 ^ 32) ∧
    (1 ≤ c.k ∧ c.k < 2 ^ 32 ∧ c.k2 < 2 ^ 32 ∧ c.excMult < 2 ^ 32 ∧ c.excScale < 2 ^ 32 ∧
      c.driftC < 2 ^ 32) := by
  simp only [Config.wf, Config.payloadOk, Config.checksumOk, Config.widthOk, Config.ringOk,
    Config.thresholdsOk, Config.scalesOk, Bool.and_eq_true, decide_eq_true_eq, and_assoc]

/-! ### The step -/

/-- A step that answers a next state ran in a well-formed block without a fault: nothing was
scheduled, or it is the first move of the schedule. -/
theorem step_next {s t : State} : step s = .next t ↔
    s.cfg.wf = true ∧ s.fault = none ∧
      (s.moves = [] ∧ t = s.withOut [] ∨
        ∃ m rest, s.moves = m :: rest ∧ runMove m (s.beginMove rest) = .next t) := by
  unfold step stepBlock
  cases s.cfg.wf <;> cases s.fault <;> cases s.moves <;> simp [eq_comm]

/-- The step of a block that is not halted takes its first move's turn. -/
theorem step_ready {s : State} {m : Move} {rest : List Move} (hw : s.cfg.wf = true)
    (hf : s.fault = none) (hh : s.status.halted = false) (hm : s.moves = m :: rest) :
    step s = takeTurn m (s.beginMove rest) := by
  unfold step stepBlock runMove
  rw [hw, hf, hm]
  by_cases h : m = .reset <;> simp [h, hh, takeTurn]

/-- A request accepted by an idle port runs its instruction. -/
theorem present_instr {s : State} {w : Request} {i : Instr} (ho : s.op = .idle)
    (hd : decode w = .instr i) : present w s = exec i s := by
  unfold present; rw [ho, hd]

/-- A request that matches no row raises ILLEGAL_OP. -/
theorem present_illegal {s : State} {w : Request} {why : Illegal} (ho : s.op = .idle)
    (hd : decode w = .illegal why) : present w s = raiseFault .illegalOp (.request w) s := by
  unfold present; rw [ho, hd]

/-- A move that answers a next state: RESET, a move of a halted block, or a turn. -/
theorem runMove_next {m : Move} {s t : State} : runMove m s = .next t ↔
    (m = .reset ∧ t = takeReset s) ∨ (m ≠ .reset ∧ s.status.halted = true ∧ t = s) ∨
      (m ≠ .reset ∧ s.status.halted = false ∧ takeTurn m s = .next t) := by
  unfold runMove
  by_cases h : m = .reset <;> cases hh : s.status.halted <;> simp [h, eq_comm]

end Sys2Proof.Machine
end

