-- ==== Sys2Proof/Laws/Effects.lean ====
section
/-! SUPPORT. What exec and a turn can do, said once: every next state they can answer, with the guards
under which they answer it. A proof over all steps is a case analysis on these, and unfolds no
meaning. -/

namespace Sys2Proof.Machine

open Sys2Proof

/-- The next states of exec i at s, one constructor per way an operation can complete. -/
inductive ExecEffect : Instr → State → State → Prop where
  | faults (i : Instr) (s : State) (code : FaultCode) :
      ExecEffect i s (s.withFault (some ⟨code, originOf i⟩))
  | magicLast (s : State) (b : Byte) (hf : s.frm.fstate = .magic)
      (hb : b = magicByte s.cfg s.frm.midx) (hm : s.frm.midx = 3) :
      ExecEffect (.frmByte b) s (s.withFrm { s.frm with midx := 0, fstate := .command })
  | magicMatch (s : State) (b : Byte) (hf : s.frm.fstate = .magic)
      (hb : b = magicByte s.cfg s.frm.midx) (hm : s.frm.midx ≠ 3) :
      ExecEffect (.frmByte b) s (s.withFrm { s.frm with midx := s.frm.midx + 1 })
  | magicMiss (s : State) (b : Byte) (hf : s.frm.fstate = .magic)
      (hb : b ≠ magicByte s.cfg s.frm.midx) :
      ExecEffect (.frmByte b) s (s.withFrm { s.frm with
        midx := if s.cfg.magicRetest ∧ b = s.cfg.magic0 then 1 else 0, chkacc := s.cfg.chkInit })
  | command (s : State) (b : Byte) (hf : s.frm.fstate = .command) :
      ExecEffect (.frmByte b) s (s.withFrm { s.frm with
        fcmd := b, chkacc := chkUpd s.cfg s.frm.chkacc b, fstate := .length })
  | lengthBad (s : State) (b : Byte) (hf : s.frm.fstate = .length)
      (hb : b.toNat < s.cfg.pmin ∨ s.cfg.maxPayload ≤ b.toNat) :
      ExecEffect (.frmByte b) s ((s.withFrm { s.frm with
        flen := b, chkacc := chkUpd s.cfg s.frm.chkacc b }).diagnoseAndRestart .badLength)
  | lengthZero (s : State) (b : Byte) (hf : s.frm.fstate = .length)
      (hb : s.cfg.pmin ≤ b.toNat ∧ b.toNat < s.cfg.maxPayload) (h0 : b = 0) :
      ExecEffect (.frmByte b) s (s.withFrm { s.frm with
        flen := b, chkacc := chkUpd s.cfg s.frm.chkacc b, fstate := .checksum })
  | lengthGood (s : State) (b : Byte) (hf : s.frm.fstate = .length)
      (hb : s.cfg.pmin ≤ b.toNat ∧ b.toNat < s.cfg.maxPayload) (h0 : b ≠ 0) :
      ExecEffect (.frmByte b) s (s.withFrm { s.frm with
        flen := b, chkacc := chkUpd s.cfg s.frm.chkacc b, pidx := 0, fstate := .payload })
  | payload (s : State) (b : Byte) (hf : s.frm.fstate = .payload)
      (hp : s.frm.pidx.toNat < s.cfg.maxPayload) :
      ExecEffect (.frmByte b) s
        ((s.withMem (s.mem.storePayload s.frm.pidx.toNat b)).withFrm { s.frm with
          chkacc := chkUpd s.cfg s.frm.chkacc b
          pidx := s.frm.pidx + 1
          fstate := if s.frm.pidx + 1 = s.frm.flen then .checksum else .payload })
  | dispatch (s : State) (b : Byte) (hf : s.frm.fstate = .checksum)
      (hb : b = chkFin s.cfg s.frm.chkacc) (hl : s.frm.flen.toNat ≤ s.cfg.maxPayload) :
      ExecEffect (.frmByte b) s
        (((s.emit (.dispatch s.frm.fcmd s.frm.flen
          (s.mem.pbuf.take s.frm.flen.toNat))).withFrm
            { s.frm with fstate := .magic, midx := 0, chkacc := s.cfg.chkInit }).forgetPayload)
  | checksumBad (s : State) (b : Byte) (hf : s.frm.fstate = .checksum)
      (hb : b ≠ chkFin s.cfg s.frm.chkacc) :
      ExecEffect (.frmByte b) s (s.diagnoseAndRestart .badChecksum)
  | irqDisable (s : State) : ExecEffect .irqDisable s (s.setIe false)
  | irqEnable (s : State) : ExecEffect .irqEnable s (s.setIe true)
  | irqSaveDisable (s : State) :
      ExecEffect .irqSaveDisable s ((s.driveRes (flagWord s.irq.ie)).setIe false)
  | irqRestore (s : State) (b : Bool) : ExecEffect (.irqRestore b) s (s.setIe b)
  | cntRead (s : State) : ExecEffect .cntRead s (s.driveRes (zext32 s.ct.pulse))
  | cntReadReset (s : State) :
      ExecEffect .cntReadReset s ((s.driveRes (zext32 s.ct.pulse)).withCt { s.ct with pulse := 0 })
  | tmrArm (s : State) (mode : ArmMode) (v : Word) (hi : s.ct.tmode = .idle)
      (hv : 1 ≤ v.toNat ∧ v.toNat < 2 ^ s.cfg.tw) :
      ExecEffect (.tmrArm mode v) s
        ((s.withCt { s.ct with
          shadow := (v.toNat + 1) % 2 ^ s.cfg.tw
          live := v.toNat
          reload := v.toNat
          tmode := armedMode mode
          finished := false }).withIrq { s.irq with pendTick := false })
  | tmrReadSync (s t : State)
      (h : syncStep (.start s.cfg.tw) (.start s.cfg.tw) s = .next t) : ExecEffect .tmrReadSync s t
  | tmrReadFinished (s : State) :
      ExecEffect .tmrReadFinished s (s.driveRes (flagWord s.ct.finished))
  | rbCopy (s : State) : ExecEffect .rbCopy s
      (s.withRbs { s.rbs with cCursor := s.rbs.cursor, cValid := s.rbs.valid })
  | rbSelect (s : State) (rate : Word) : ExecEffect (.rbSelect rate) s
      ((s.withRbs { s.rbs with range := nextRange s.cfg s.rbs.range rate.toNat }).driveRes
        (zext32 (min (baseWindow s.cfg (nextRange s.cfg s.rbs.range rate.toNat))
          s.rbs.cValid.toNat)))
  | statsStart (s : State) (w : Word)
      (hw : s.cfg.short ≤ w.toNat ∧ w.toNat ≤ s.rbs.cValid.toNat) :
      ExecEffect (.rbStats w) s (s.withOp (.rbStats (.start s.cfg w)))
  | statsUnavailable (s : State) (w : Word) (hc : s.rbs.cValid.toNat < s.cfg.short) :
      ExecEffect (.rbStats w) s ((s.withSnap .zero).driveRes 0)
  | rbExcursion (s : State) (hs : s.snap.avail = true) : ExecEffect .rbExcursion s
      (s.driveRes (flagWord (excursionFires s.cfg s.snap.rlong.toNat s.snap.rshort.toNat)))
  | rbDrift (s : State) (hs : s.snap.avail = true) : ExecEffect .rbDrift s
      (s.driveRes (flagWord (driftFires s.cfg s.snap.newer.toNat s.snap.older.toNat)))
  | rbShrink (s : State) : ExecEffect .rbShrink s (s.withRbs
      { s.rbs with valid := BitVec.ofNat 8 (min s.rbs.valid.toNat s.cfg.short) })
  | snapRead (s : State) (sel : Byte) (v : Word) (hv : s.snapRegister sel = some v) :
      ExecEffect (.snapRead sel) s (s.driveRes v)
  | isqrt (s : State) (q : Word) :
      ExecEffect (.isqrt q) s (s.driveRes (zext32 (Machine.isqrt q.toNat)))
  | fmt (s : State) (v : Word) (p d : Byte) (hg : fmtFits v p d = true) :
      ExecEffect (.fmt v p d) s (s.emit (.str (fmtString v.toNat p.toNat d.toNat)))

section
variable {s t : State}

theorem execFrmByte_effect {b : Byte} (h : execFrmByte b s = .next t) :
    ExecEffect (.frmByte b) s t := by
  unfold execFrmByte at h
  split at h <;> rename_i hf
  · unfold frmMagic at h
    split at h <;> rename_i hb
    · split at h <;> rename_i hm <;> cases h
      · exact .magicLast s b hf hb hm
      · exact .magicMatch s b hf hb hm
    · cases h; exact .magicMiss s b hf hb
  · cases h; exact .command s b hf
  · unfold frmLength at h
    dsimp only at h
    split at h <;> rename_i hb
    · cases h; exact .lengthBad s b hf hb
    · have hb' : s.cfg.pmin ≤ b.toNat ∧ b.toNat < s.cfg.maxPayload := by omega
      split at h <;> rename_i h0 <;> cases h
      · exact .lengthZero s b hf hb' h0
      · exact .lengthGood s b hf hb' h0
  · unfold frmPayload at h
    split at h <;> rename_i hp <;> cases h
    exact .payload s b hf hp
  · unfold frmChecksum at h
    split at h <;> rename_i hb
    · split at h <;> rename_i hl <;> cases h
      exact .dispatch s b hf hb hl
    · cases h; exact .checksumBad s b hf hb

theorem execTmrArm_effect {mode : ArmMode} {v : Word} (h : execTmrArm mode v s = .next t) :
    ExecEffect (.tmrArm mode v) s t := by
  unfold execTmrArm at h
  split at h <;> rename_i hi
  · rw [raiseFault_next] at h; subst h; exact .faults _ s _
  · split at h <;> rename_i hv
    · cases h; exact .tmrArm s mode v (not_not.1 hi) (of_decide_eq_true hv)
    · rw [raiseFault_next] at h; subst h; exact .faults _ s _

theorem execRbStats_effect {w : Word} (h : execRbStats w s = .next t) :
    ExecEffect (.rbStats w) s t := by
  unfold execRbStats State.statsAvailable windowFits at h
  split at h <;> rename_i ha
  · split at h <;> rename_i hw
    · cases h; exact .statsStart s w (of_decide_eq_true hw)
    · rw [raiseFault_next] at h; subst h; exact .faults _ s _
  · cases h; exact .statsUnavailable s w (by simpa using ha)

/-- Every next state of exec is one of the effects. -/
theorem exec_effect {i : Instr} (h : exec i s = .next t) : ExecEffect i s t := by
  cases i with
  | frmByte b => exact execFrmByte_effect h
  | irqDisable => cases h; exact .irqDisable s
  | irqEnable => cases h; exact .irqEnable s
  | irqSaveDisable => cases h; exact .irqSaveDisable s
  | irqRestore b => cases h; exact .irqRestore s b
  | cntRead => cases h; exact .cntRead s
  | cntReadReset => cases h; exact .cntReadReset s
  | tmrArm mode v => exact execTmrArm_effect h
  | tmrReadSync => exact .tmrReadSync s t h
  | tmrReadFinished => cases h; exact .tmrReadFinished s
  | rbCopy => cases h; exact .rbCopy s
  | rbSelect rate => cases h; exact .rbSelect s rate
  | rbStats w => exact execRbStats_effect h
  | rbExcursion =>
    simp only [exec, execRbExcursion] at h
    split at h <;> rename_i ha
    · cases h; exact .rbExcursion s ha
    · rw [raiseFault_next] at h; subst h; exact .faults _ s _
  | rbDrift =>
    simp only [exec, execRbDrift] at h
    split at h <;> rename_i ha
    · cases h; exact .rbDrift s ha
    · rw [raiseFault_next] at h; subst h; exact .faults _ s _
  | rbShrink => cases h; exact .rbShrink s
  | snapRead sel =>
    simp only [exec, execSnapRead] at h
    split at h <;> rename_i hv
    · cases h; exact .snapRead s sel _ hv
    · rw [raiseFault_next] at h; subst h; exact .faults _ s _
  | isqrt q => cases h; exact .isqrt s q
  | fmt v p d =>
    simp only [exec, execFmt] at h
    split at h <;> rename_i hg
    · cases h; exact .fmt s v p d hg
    · rw [raiseFault_next] at h; subst h; exact .faults _ s _

/-- What a micro-step of TMR_READ_SYNC can do (R167): it uses one choice, changes OPSTATE, and where it
ends the operation drives RES. -/
theorem syncStep_next {l sh : ByteAcc} (h : syncStep l sh s = .next t) :
    (l.left ≠ [] ∧ t = s.usePick.withOp (.tmrReadSync (l.read s.ct.live s.pick) sh)) ∨
    (l.left = [] ∧ (sh.read s.ct.shadow s.pick).left ≠ [] ∧
      t = s.usePick.withOp (.tmrReadSync l (sh.read s.ct.shadow s.pick))) ∨
    (l.left = [] ∧ (sh.read s.ct.shadow s.pick).left = [] ∧
      syncConsistent s.cfg l.value (sh.read s.ct.shadow s.pick).value = false ∧
      t = s.usePick.withOp (syncAttemptStart s.cfg)) ∨
    (l.left = [] ∧ (sh.read s.ct.shadow s.pick).left = [] ∧
      syncConsistent s.cfg l.value (sh.read s.ct.shadow s.pick).value = true ∧
      t = (s.usePick.withOp .idle).driveRes (zext32 l.value)) := by
  unfold syncStep at h
  dsimp only at h
  split at h <;> rename_i h1
  · split at h <;> rename_i h2
    · split at h <;> rename_i h3 <;> cases h
      · exact .inr (.inr (.inr ⟨by simpa using h1, by simpa using h2, h3, rfl⟩))
      · exact .inr (.inr (.inl ⟨by simpa using h1, by simpa using h2, by simpa using h3, rfl⟩))
    · cases h
      exact .inr (.inl ⟨by simpa using h1, by simpa using h2, rfl⟩)
  · cases h
    exact .inl ⟨by simpa using h1, rfl⟩

/-- What a later micro-step of RB_STATS can do (R206). -/
theorem statsStep_next {v : Traversal} (h : statsStep v s = .next t) :
    (v.i < v.window.toNat ∧ t = s.usePick.withOp (.rbStats (v.readByte s.cfg
      (s.mem.ringEntry (ringSlot s.cfg s.rbs.cCursor.toNat v.i)) s.pick))) ∨
    (v.window.toNat ≤ v.i ∧ ∃ snap,
      computeSnapshot s.cfg v.window.toNat v.total v.newer v.short = some snap ∧
      t = ((s.withSnap snap).withOp .idle).driveRes 1) ∨
    (v.window.toNat ≤ v.i ∧
      computeSnapshot s.cfg v.window.toNat v.total v.newer v.short = none ∧
      t = s.withFault (some ⟨.overflow, originOf (.rbStats v.window)⟩)) := by
  unfold statsStep statsFinish at h
  split at h <;> rename_i h1
  · cases h; exact .inl ⟨h1, rfl⟩
  · split at h <;> rename_i h2
    · cases h; exact .inr (.inl ⟨Nat.le_of_not_lt h1, _, h2, rfl⟩)
    · rw [raiseFault_next] at h
      exact .inr (.inr ⟨Nat.le_of_not_lt h1, h2, h⟩)

end

/-- The next states of a turn at s, in a block that is not halted. -/
inductive TurnEffect : Move → State → State → Prop where
  | nothing (m : Move) (s : State) (hm : m ≠ .reset) : TurnEffect m s s
  | illegal (s : State) (w : Request) (why : Illegal) (ho : s.op = .idle)
      (hd : decode w = .illegal why) :
      TurnEffect (.request w) s (s.withFault (some ⟨.illegalOp, .request w⟩))
  | instr (s t : State) (w : Request) (i : Instr) (ho : s.op = .idle) (hd : decode w = .instr i)
      (he : ExecEffect i s t) : TurnEffect (.request w) s t
  | sync (s t : State) (l sh : ByteAcc) (ho : s.op = .tmrReadSync l sh)
      (he : syncStep l sh s = .next t) : TurnEffect .micro s t
  | stats (s t : State) (v : Traversal) (ho : s.op = .rbStats v)
      (he : statsStep v s = .next t) : TurnEffect .micro s t
  | edgeOverflow (s : State) (hi : s.irq.ie = true) (hp : s.irq.pendEdge = true)
      (hc : s.ct.pulse = 2 ^ s.cfg.pcw - 1) :
      TurnEffect .edgeIsr s (s.withFault (some ⟨.overflow, .edgeHandler⟩))
  | edgeHandler (s : State) (hi : s.irq.ie = true) (hp : s.irq.pendEdge = true)
      (hc : s.ct.pulse ≠ 2 ^ s.cfg.pcw - 1) :
      TurnEffect .edgeIsr s (((s.withCt { s.ct with pulse := s.ct.pulse + 1 }).emit
        .edgeFeedback).withIrq { s.irq with pendEdge := false })
  | tickHandler (s : State) (hi : s.irq.ie = true) (hp : s.irq.pendTick = true) :
      TurnEffect .tickIsr s ((tickBody (s.setIe false)).setIe true)
  | edge (s : State) : TurnEffect .edge s (s.withIrq { s.irq with pendEdge := true })
  | tick (s : State) (hr : s.ct.tmode.running = true) :
      TurnEffect .tick s (s.withIrq { s.irq with pendTick := true })
  | reset (s : State) : TurnEffect .reset s (takeReset s)

/-- Every next state of a turn is one of the effects. -/
theorem takeTurn_effect {m : Move} {s t : State} (h : takeTurn m s = .next t) :
    TurnEffect m s t := by
  cases m with
  | request w =>
    simp only [takeTurn, present] at h
    split at h <;> rename_i ho
    · split at h <;> rename_i hd
      · exact .instr s t w _ ho hd (exec_effect h)
      · rw [raiseFault_next] at h; subst h; exact .illegal s w _ ho hd
    · cases h; exact .nothing _ s (by simp)
    · cases h; exact .nothing _ s (by simp)
  | micro =>
    simp only [takeTurn, microStep] at h
    split at h <;> rename_i ho
    · cases h; exact .nothing _ s (by simp)
    · exact .sync s t _ _ ho h
    · exact .stats s t _ ho h
  | edgeIsr =>
    simp only [takeTurn, State.edgeHandlerEnabled, Bool.and_eq_true] at h
    split at h <;> rename_i he
    · unfold Machine.edgeHandler at h
      split at h <;> rename_i hc
      · rw [raiseFault_next] at h; subst h; exact .edgeOverflow s he.1 he.2 hc
      · cases h
        have := TurnEffect.edgeHandler s he.1 he.2 hc
        rcases s with ⟨_, _, _, _, _, ⟨ie, _, _⟩, _, _, _, _, _, _, _, _⟩
        obtain ⟨rfl, -⟩ : ie = true ∧ _ := he
        exact this
    · cases h; exact .nothing _ s (by simp)
  | tickIsr =>
    simp only [takeTurn, State.tickHandlerEnabled, Bool.and_eq_true] at h
    split at h <;> rename_i he
    · cases h; exact .tickHandler s he.1 he.2
    · cases h; exact .nothing _ s (by simp)
  | edge => cases h; exact .edge s
  | tick =>
    simp only [takeTurn, deliverTick, next_inj] at h
    split at h <;> rename_i hr <;> cases h
    · exact .tick s hr
    · exact .nothing _ s (by simp)
  | reset => cases h; exact .reset s

/-- Every next state of a step: nothing scheduled, a halted block that only lets the move pass, or one
of the effects of its first move. -/
theorem step_effect {s t : State} (h : step s = .next t) :
    s.cfg.wf = true ∧ s.fault = none ∧
      (s.moves = [] ∧ t = s.withOut [] ∨
        ∃ m rest, s.moves = m :: rest ∧
          (m ≠ .reset ∧ s.status.halted = true ∧ t = s.beginMove rest ∨
            (m = .reset ∨ s.status.halted = false) ∧ TurnEffect m (s.beginMove rest) t)) := by
  obtain ⟨hw, hf, ht⟩ := step_next.1 h
  refine ⟨hw, hf, ht.imp_right ?_⟩
  rintro ⟨m, rest, hm, hr⟩
  refine ⟨m, rest, hm, ?_⟩
  rcases runMove_next.1 hr with ⟨rfl, rfl⟩ | ⟨h1, h2, h3⟩ | ⟨h1, h2, h3⟩
  · exact .inr ⟨.inl rfl, .reset _⟩
  · exact .inl ⟨h1, h2, h3⟩
  · exact .inr ⟨.inr h2, takeTurn_effect h3⟩

/-- What the tick handler body can do (R162 to R165), from the state with PEND_TICK clear. -/
theorem tickBody_eq (s : State) : tickBody s =
    if s.ct.tmode.running then
      if (countDown s).ct.live = 0 then
        if s.ct.tmode = .total then finish ((countDown s).withIrq { s.irq with pendTick := false })
        else rotate ((countDown s).withIrq { s.irq with pendTick := false })
      else (countDown s).withIrq { s.irq with pendTick := false }
    else s.withIrq { s.irq with pendTick := false } := by
  rcases s with ⟨_, _, _, _, _, _, ⟨_, _, _, tmode, _, _⟩, _, _, _, _, _, _, _⟩
  cases tmode <;> rfl

end Sys2Proof.Machine
end

