-- ==== Sys2Proof/Laws/PerInstr.lean ====
section
/-! SUPPORT. The fields of an assembled request word, and the per-instruction family EncodesItsRow: an
instruction's word carries its operation code and leaves zero every field its format does not read
(spec/30_encoding.md R81, R82). -/

namespace Sys2Proof

/-! ### Fields of a word -/

theorem fieldOp_toNat (w : Request) : (fieldOp w).toNat = w.toNat / 2 ^ 59 := by
  have := w.isLt
  simp only [fieldOp, BitVec.extractLsb'_toNat, Nat.shiftRight_eq_div_pow]
  omega

theorem fieldReserved_toNat (w : Request) : (fieldReserved w).toNat = w.toNat / 2 ^ 48 % 2 ^ 11 := by
  simp only [fieldReserved, BitVec.extractLsb'_toNat, Nat.shiftRight_eq_div_pow]

theorem fieldC_toNat (w : Request) : (fieldC w).toNat = w.toNat / 2 ^ 40 % 2 ^ 8 := by
  simp only [fieldC, BitVec.extractLsb'_toNat, Nat.shiftRight_eq_div_pow]

theorem fieldB_toNat (w : Request) : (fieldB w).toNat = w.toNat / 2 ^ 32 % 2 ^ 8 := by
  simp only [fieldB, BitVec.extractLsb'_toNat, Nat.shiftRight_eq_div_pow]

theorem fieldA_toNat (w : Request) : (fieldA w).toNat = w.toNat % 2 ^ 32 := by
  simp only [fieldA, BitVec.extractLsb'_toNat, Nat.shiftRight_eq_div_pow, pow_zero, Nat.div_one]

section
variable (op : Nat) (c b : Byte) (a : Word)

theorem requestWord_toNat (h : op < 32) : (requestWord op c b a).toNat =
    op * 2 ^ 59 + c.toNat * 2 ^ 40 + b.toNat * 2 ^ 32 + a.toNat := by
  have := c.isLt; have := b.isLt; have := a.isLt
  simp only [requestWord, BitVec.toNat_ofNat]
  omega

theorem fieldOp_requestWord (h : op < 32) : (fieldOp (requestWord op c b a)).toNat = op := by
  have := c.isLt; have := b.isLt; have := a.isLt
  rw [fieldOp_toNat, requestWord_toNat op c b a h]; omega

theorem fieldReserved_requestWord (h : op < 32) : fieldReserved (requestWord op c b a) = 0 := by
  have := c.isLt; have := b.isLt; have := a.isLt
  apply BitVec.eq_of_toNat_eq
  rw [fieldReserved_toNat, requestWord_toNat op c b a h]
  show _ = 0
  omega

theorem fieldC_requestWord (h : op < 32) : fieldC (requestWord op c b a) = c := by
  have := c.isLt; have := b.isLt; have := a.isLt
  apply BitVec.eq_of_toNat_eq
  rw [fieldC_toNat, requestWord_toNat op c b a h]; omega

theorem fieldB_requestWord (h : op < 32) : fieldB (requestWord op c b a) = b := by
  have := c.isLt; have := b.isLt; have := a.isLt
  apply BitVec.eq_of_toNat_eq
  rw [fieldB_toNat, requestWord_toNat op c b a h]; omega

theorem fieldA_requestWord (h : op < 32) : fieldA (requestWord op c b a) = a := by
  have := c.isLt; have := b.isLt; have := a.isLt
  apply BitVec.eq_of_toNat_eq
  rw [fieldA_toNat, requestWord_toNat op c b a h]; omega

end

/-- Every operation code has five bits (R81). -/
theorem Instr.opcode_lt (i : Instr) : i.opcode < 32 := by cases i <;> simp [Instr.opcode]

/-- A word that fits a format decodes by that format's row, else it is refused by name. -/
theorem Format.accept_eq_instr {f : Format} {w : Request} {i j : Instr} :
    f.accept w i = .instr j ↔ f.fits w = true ∧ i = j := by
  unfold Format.accept; split <;> simp_all

namespace Laws.EncodesItsRow

/-- The word of i carries i's operation code, and every field i's format does not read is zero. -/
def Statement (i : Instr) : Prop :=
  (fieldOp (encode i)).toNat = i.opcode ∧ i.format.fits (encode i) = true

theorem of_operands (i : Instr)
    (h : match i.format with
      | .op0 => i.operandC = 0 ∧ i.operandB = 0 ∧ i.operandA = 0
      | .opb => i.operandC = 0 ∧ i.operandA = 0
      | .opb1 => i.operandC = 0 ∧ i.operandB.toNat < 2 ∧ i.operandA = 0
      | .opa => i.operandC = 0 ∧ i.operandB = 0
      | .opab1 => i.operandC = 0 ∧ i.operandB.toNat < 2
      | .opabc => True) : Statement i := by
  refine ⟨fieldOp_requestWord _ _ _ _ i.opcode_lt, ?_⟩
  revert h
  cases hf : i.format <;> intro h <;>
    simp_all [Format.fits, encode, fieldReserved_requestWord, fieldC_requestWord,
      fieldB_requestWord, fieldA_requestWord, i.opcode_lt]

theorem frmByte (b : Byte) : Statement (.frmByte b) := of_operands _ ⟨rfl, rfl⟩
theorem irqDisable : Statement .irqDisable := of_operands _ ⟨rfl, rfl, rfl⟩
theorem irqEnable : Statement .irqEnable := of_operands _ ⟨rfl, rfl, rfl⟩
theorem irqSaveDisable : Statement .irqSaveDisable := of_operands _ ⟨rfl, rfl, rfl⟩
theorem irqRestore (saved : Bool) : Statement (.irqRestore saved) :=
  of_operands _ ⟨rfl, by cases saved <;> decide, rfl⟩
theorem cntRead : Statement .cntRead := of_operands _ ⟨rfl, rfl, rfl⟩
theorem cntReadReset : Statement .cntReadReset := of_operands _ ⟨rfl, rfl, rfl⟩
theorem tmrArm (mode : ArmMode) (v : Word) : Statement (.tmrArm mode v) :=
  of_operands _ ⟨rfl, by cases mode <;> show _ < 2 <;> simp [Instr.operandB, armModeToB]⟩
theorem tmrReadSync : Statement .tmrReadSync := of_operands _ ⟨rfl, rfl, rfl⟩
theorem tmrReadFinished : Statement .tmrReadFinished := of_operands _ ⟨rfl, rfl, rfl⟩
theorem rbCopy : Statement .rbCopy := of_operands _ ⟨rfl, rfl, rfl⟩
theorem rbSelect (rate : Word) : Statement (.rbSelect rate) :=
  of_operands _ ⟨rfl, rfl⟩
theorem rbStats (window : Word) : Statement (.rbStats window) :=
  of_operands _ ⟨rfl, rfl⟩
theorem rbExcursion : Statement .rbExcursion := of_operands _ ⟨rfl, rfl, rfl⟩
theorem rbDrift : Statement .rbDrift := of_operands _ ⟨rfl, rfl, rfl⟩
theorem rbShrink : Statement .rbShrink := of_operands _ ⟨rfl, rfl, rfl⟩
theorem snapRead (sel : Byte) : Statement (.snapRead sel) :=
  of_operands _ ⟨rfl, rfl⟩
theorem isqrt (q : Word) : Statement (.isqrt q) :=
  of_operands _ ⟨rfl, rfl⟩
theorem fmt (value : Word) (pos count : Byte) : Statement (.fmt value pos count) :=
  of_operands _ trivial

end Laws.EncodesItsRow

end Sys2Proof
end

