-- ==== Sys2Proof/Laws/Encoding.lean ====
section
/-! SUPPORT. The fields of an instruction's request word, and a word as the sum of its fields
(spec/30_encoding.md R81). -/

namespace Sys2Proof

section
variable (i : Instr)
@[simp] theorem fieldOp_encode : (fieldOp (encode i)).toNat = i.opcode :=
  fieldOp_requestWord _ _ _ _ i.opcode_lt
@[simp] theorem fieldReserved_encode : fieldReserved (encode i) = 0 :=
  fieldReserved_requestWord _ _ _ _ i.opcode_lt
@[simp] theorem fieldC_encode : fieldC (encode i) = i.operandC :=
  fieldC_requestWord _ _ _ _ i.opcode_lt
@[simp] theorem fieldB_encode : fieldB (encode i) = i.operandB :=
  fieldB_requestWord _ _ _ _ i.opcode_lt
@[simp] theorem fieldA_encode : fieldA (encode i) = i.operandA :=
  fieldA_requestWord _ _ _ _ i.opcode_lt
end

/-- A request word is the sum of its fields in their places. -/
theorem request_toNat (w : Request) : w.toNat = (fieldOp w).toNat * 2 ^ 59 +
    (fieldReserved w).toNat * 2 ^ 48 + (fieldC w).toNat * 2 ^ 40 + (fieldB w).toNat * 2 ^ 32 +
      (fieldA w).toNat := by
  rw [fieldOp_toNat, fieldReserved_toNat, fieldC_toNat, fieldB_toNat, fieldA_toNat]
  omega

/-- A word with an instruction's code and operands, and nothing in the reserved field, is its word. -/
theorem encode_of_fields {w : Request} {i : Instr} (ho : (fieldOp w).toNat = i.opcode)
    (hr : fieldReserved w = 0) (hc : fieldC w = i.operandC) (hb : fieldB w = i.operandB)
    (ha : fieldA w = i.operandA) : encode i = w := by
  apply BitVec.eq_of_toNat_eq
  rw [encode, requestWord_toNat _ _ _ _ i.opcode_lt, request_toNat w, ho, hr, hc, hb, ha]
  simp

end Sys2Proof
end

