-- ==== Sys2Proof/Laws/Memory.lean ====
section
/-! SUPPORT. The two buffers (spec/20_memory.md R60, R61, R68): a read after a write of the same element
gives the value written, a write leaves every other element alone, and every operation that writes a
buffer keeps the canonical form. -/

namespace Sys2Proof.Machine

open Sys2Proof

section
variable (m : Memory) (i j : Nat)

theorem Memory.payloadByte_storePayload_same (b : Byte) (h : i < m.pbuf.length) :
    (m.storePayload i b).payloadByte i = b := by
  simp [Memory.payloadByte, Memory.storePayload, h]

theorem Memory.payloadByte_storePayload_other (b : Byte) (h : j ≠ i) :
    (m.storePayload i b).payloadByte j = m.payloadByte j := by
  simp [Memory.payloadByte, Memory.storePayload, h.symm]

theorem Memory.ringEntry_storeRing_same (x : Nat) (h : i < m.rb.length) :
    (m.storeRing i x).ringEntry i = x := by
  simp [Memory.ringEntry, Memory.storeRing, h]

theorem Memory.ringEntry_storeRing_other (x : Nat) (h : j ≠ i) :
    (m.storeRing i x).ringEntry j = m.ringEntry j := by
  simp [Memory.ringEntry, Memory.storeRing, h.symm]

@[simp] theorem Memory.storePayload_rb (b : Byte) : (m.storePayload i b).rb = m.rb := rfl

@[simp] theorem Memory.storeRing_pbuf (x : Nat) : (m.storeRing i x).pbuf = m.pbuf := rfl

theorem Memory.payloadByte_storeRing (x : Nat) :
    (m.storeRing i x).payloadByte j = m.payloadByte j := rfl

theorem Memory.ringEntry_storePayload (b : Byte) :
    (m.storePayload i b).ringEntry j = m.ringEntry j := rfl
end

/-! ### The canonical form -/

theorem Memory.storePayload_wf {c : Config} {m : Memory} (i : Nat) (b : Byte) (h : m.wf c) :
    (m.storePayload i b).wf c := by
  obtain ⟨h1, h2, h3⟩ := h
  exact ⟨by simp [Memory.storePayload, h1], h2, h3⟩

theorem Memory.storeRing_wf {c : Config} {m : Memory} (i : Nat) {x : Nat} (hx : x < 2 ^ c.pcw)
    (h : m.wf c) : (m.storeRing i x).wf c := by
  obtain ⟨h1, h2, h3⟩ := h
  refine ⟨h1, by simp [Memory.storeRing, h2], fun e he => ?_⟩
  rcases List.mem_or_eq_of_mem_set he with he | rfl
  · exact h3 e he
  · exact hx

theorem push_wf {s : State} {count : Nat} (hx : count < 2 ^ s.cfg.pcw) (h : s.mem.wf s.cfg) :
    (push count s).mem.wf s.cfg :=
  Memory.storeRing_wf _ hx h

@[simp] theorem freeBytes_length (n len : Nat) : (freeBytes n len).length = len := by
  simp [freeBytes]

@[simp] theorem freeEntries_length (c : Config) (n len : Nat) :
    (freeEntries c n len).length = len := by
  simp [freeEntries]

theorem freeEntries_lt (c : Config) (n len : Nat) : ∀ e ∈ freeEntries c n len, e < 2 ^ c.pcw := by
  intro e he
  obtain ⟨i, -, rfl⟩ := List.mem_map.1 he
  exact Nat.mod_lt _ (by positivity)

theorem forgetPayload_wf {s : State} (h : s.mem.wf s.cfg) : s.forgetPayload.mem.wf s.cfg :=
  ⟨freeBytes_length _ _, h.2⟩

theorem takeReset_wf (s : State) : (takeReset s).mem.wf s.cfg :=
  ⟨freeBytes_length _ _, freeEntries_length _ _ _, freeEntries_lt _ _ _⟩

theorem resetWith_wf (c : Config) : (State.resetWith c).mem.wf c := by
  refine ⟨List.length_replicate, List.length_replicate, fun e he => ?_⟩
  rw [List.eq_of_mem_replicate he]
  positivity

/-- State.reset has the canonical form. -/
theorem reset_wf : State.reset.mem.wf State.reset.cfg := resetWith_wf _

end Sys2Proof.Machine
end

