-- ==== Sys2Proof/Laws/Runs.lean ====
section
/-! SUPPORT. Lemmas about runs: what a run step offers, k steps one after the other, the bytes still to be
read, and the turns of other agents while TMR_READ_SYNC is in progress. -/

namespace Sys2Proof.Machine

open Sys2Proof

/-! ### What a run offers a step -/

section
variable (s : State) (m : Move) (ps : List Nat)
@[simp] theorem State.offer_cfg : (s.offer m ps).cfg = s.cfg := rfl
@[simp] theorem State.offer_frm : (s.offer m ps).frm = s.frm := rfl
@[simp] theorem State.offer_mem : (s.offer m ps).mem = s.mem := rfl
@[simp] theorem State.offer_status : (s.offer m ps).status = s.status := rfl
@[simp] theorem State.offer_fault : (s.offer m ps).fault = s.fault := rfl
@[simp] theorem State.offer_irq : (s.offer m ps).irq = s.irq := rfl
@[simp] theorem State.offer_ct : (s.offer m ps).ct = s.ct := rfl
@[simp] theorem State.offer_rbs : (s.offer m ps).rbs = s.rbs := rfl
@[simp] theorem State.offer_snap : (s.offer m ps).snap = s.snap := rfl
@[simp] theorem State.offer_op : (s.offer m ps).op = s.op := rfl
@[simp] theorem State.offer_moves : (s.offer m ps).moves = [m] := rfl
@[simp] theorem State.offer_picks : (s.offer m ps).picks = ps := rfl
@[simp] theorem State.offer_out : (s.offer m ps).out = s.out := rfl
@[simp] theorem State.offer_freeCount : (s.offer m ps).freeCount = s.freeCount := rfl
end

/-! ### Steps one after the other -/

@[simp] theorem runSteps_zero (s : State) : runSteps 0 s = .next s := rfl

theorem runSteps_succ {k : Nat} {s t : State} (h : step s = .next t) :
    runSteps (k + 1) s = runSteps k t := by
  simp [runSteps, h]

theorem runSteps_add {j k : Nat} {s t : State} (h : runSteps j s = .next t) :
    runSteps (j + k) s = runSteps k t := by
  induction j generalizing s with
  | zero => cases h; rw [Nat.zero_add]
  | succ j ih =>
    cases hs : step s with
    | next u =>
      rw [runSteps_succ hs] at h
      rw [Nat.add_right_comm, runSteps_succ hs]
      exact ih h
    | fault r => simp [runSteps, hs] at h
    | refused r => simp [runSteps, hs] at h

/-! ### Reading while other agents step (R64, R158, R167) -/

/-- Of the bytes left, one is read and the rest stay (R64). -/
theorem bytesAt_erase {left : List Nat} {k : Nat} (v : Nat) (h : k ∈ left) :
    bytesAt v left = byteOf v k * 256 ^ k + bytesAt v (left.erase k) := by
  unfold bytesAt
  rw [((List.perm_cons_erase h).map _).sum_eq, List.map_cons, List.sum_cons]

/-- What the turn of another agent leaves, of s, during a read without a tick handler step: the schedule
without it, its outputs, and its PULSE and pending flags. -/
def State.afterOther (s : State) (rest : List Move) (out : List Output) (pulse : Nat)
    (pendEdge pendTick : Bool) : State :=
  { s with
    moves := rest
    out := out
    ct := { s.ct with pulse := pulse }
    irq := { s.irq with pendEdge := pendEdge, pendTick := pendTick } }

/-- While TMR_READ_SYNC is in progress, a turn that is no micro-step, no RESET and no tick handler step
completes, and writes nothing but PULSE and the pending flags, unless PULSE would overflow (R45,
R158, R167). -/
theorem step_other_during_sync {s : State} {m : Move} {rest : List Move} {l sh : ByteAcc}
    (hr : s.Ready) (ho : s.op = .tmrReadSync l sh) (hm : s.moves = m :: rest) (h1 : m ≠ .micro)
    (h2 : m ≠ .reset) (h3 : m = .tickIsr → s.tickHandlerEnabled = false)
    (h4 : s.ct.pulse + [m].count .edgeIsr < 2 ^ s.cfg.pcw) :
    ∃ o p e k, step s = .next (s.afterOther rest o p e k) ∧ p ≤ s.ct.pulse + [m].count .edgeIsr := by
  rw [step_ready hr.1 hr.2.1 hr.2.2 hm]
  have still : ∃ o p e k, (.next (s.beginMove rest) : Result) = .next (s.afterOther rest o p e k) ∧
      p ≤ s.ct.pulse + [m].count .edgeIsr :=
    ⟨[], s.ct.pulse, s.irq.pendEdge, s.irq.pendTick, rfl, Nat.le_add_right _ _⟩
  cases m with
  | request w => simp only [takeTurn, present, State.beginMove_op, ho]; exact still
  | micro => exact absurd rfl h1
  | reset => exact absurd rfl h2
  | edge => exact ⟨[], s.ct.pulse, true, s.irq.pendTick, rfl, Nat.le_add_right _ _⟩
  | tick =>
    simp only [takeTurn, deliverTick]
    split
    · exact ⟨[], s.ct.pulse, s.irq.pendEdge, true, rfl, Nat.le_add_right _ _⟩
    · exact still
  | tickIsr =>
    have h : (s.beginMove rest).tickHandlerEnabled = false := h3 rfl
    simp only [takeTurn, h]; exact still
  | edgeIsr =>
    simp only [takeTurn]
    split
    · rename_i he
      have he : s.irq.ie = true ∧ s.irq.pendEdge = true := by
        simpa [State.edgeHandlerEnabled] using he
      have h4 : s.ct.pulse + 1 < 2 ^ s.cfg.pcw := by simpa using h4
      refine ⟨[.edgeFeedback], s.ct.pulse + 1, false, s.irq.pendTick, ?_, by simp⟩
      unfold edgeHandler
      rw [if_neg (by show s.ct.pulse ≠ 2 ^ s.cfg.pcw - 1; omega)]
      rcases s with ⟨_, _, _, _, _, ⟨ie, _, _⟩, _, _, _, _, _, _, _, _⟩
      obtain ⟨rfl, -⟩ : ie = true ∧ _ := he
      rfl
    · exact still

end Sys2Proof.Machine
end

