-- ==== Sys2Proof/Tests/Slice0.lean ====
section
/-! SUPPORT. Tests on fixed values, each from a vector of spec/95_test_vectors.md or a word written out
from spec/30_encoding.md R81, R82 and R84; and, for every statement with hypotheses, a state and
operands that meet them together. -/

namespace Sys2Proof.Tests

-- One theorem after the other: each `decide +kernel` waits for the kernel, and many at once would each
-- hold a thread.
set_option Elab.async false

open Sys2Proof Sys2Proof.Machine

/-! ### Helpers -/

/-- The next state, if the outcome is one. -/
def nextOf : Result → Option State
  | .next t => some t
  | .fault _ => none
  | .refused _ => none

/-- The state after one step, s itself where there is none. -/
def stepped (s : State) : State := (nextOf (step s)).getD s

/-- The state after k steps, s itself where a step stops. -/
def ran (k : Nat) (s : State) : State := (nextOf (runSteps k s)).getD s

/-- The state after an operation, s itself where it stops. -/
def after (i : Instr) (s : State) : State := (nextOf (exec i s)).getD s

theorem eq_next_of_isSome {r : Result} {s : State} (h : (nextOf r).isSome = true) :
    r = .next ((nextOf r).getD s) := by
  cases r <;> simp_all [nextOf]

theorem eq_next_of_nextOf {r : Result} {s : State} (h : nextOf r = some s) : r = .next s := by
  cases r <;> simp_all [nextOf]

/-- s with the given schedule. -/
abbrev sched (ms : List Move) (s : State) : State := { s with moves := ms }

/-- The schedule hypothesis of every witness below that is written with `sched`. -/
theorem sched_moves (ms : List Move) (s : State) : (sched ms s).moves = ms := rfl

/-- s with its timer running at `live`, its handshake kept, IE = 1 and PEND_TICK = 1. -/
abbrev ticking (mode : TMode) (live reload : Nat) (s : State) : State :=
  { s with
    irq := ⟨true, false, true⟩
    ct := { s.ct with tmode := mode, live := live, shadow := (live + 1) % 65536, reload := reload } }

/-- s in framing state f. -/
abbrev inFrame (f : FState) (s : State) : State := { s with frm := { s.frm with fstate := f } }

/-- The reference configuration with PMIN = 1. -/
abbrev pmin1 : Config := { Config.reference with pmin := 1 }

/-- The reference configuration with MAGIC_RETEST. -/
abbrev retest : Config := { Config.reference with magicRetest := true }

/-- A ring holding 1 to 8 in push order, copied, with a window of the whole ring. -/
abbrev filled : State :=
  { State.reset with
    mem := { State.reset.mem with rb := [1, 2, 3, 4, 5, 6, 7, 8] }
    rbs := ⟨7, 8, .low, 7, 8⟩ }

/-- `filled` with an available snapshot whose halves are 40 and 4. -/
abbrev snapped : State :=
  { filled with snap := ⟨true, 8, 44, 40, 4, 40, 5, 10, 16, true⟩ }

/-! ### WellFormed: each check refuses an ill-formed configuration (R7, R8) -/

theorem test_reference_is_wellFormed : Config.reference.wf = true := by decide +kernel

theorem test_empty_payload_range_is_refused :
    ({ Config.reference with pmin := 64 } : Config).payloadOk = false ∧
    ({ Config.reference with maxPayload := 257 } : Config).payloadOk = false ∧
    ({ Config.reference with pmin := 64 } : Config).wf = false := by decide +kernel

theorem test_wide_checksum_init_is_refused :
    ({ Config.reference with chkInit := 256 } : Config).checksumOk = false ∧
    ({ Config.reference with chkInit := 256 } : Config).wf = false := by decide +kernel

theorem test_ragged_widths_are_refused :
    Config.widthOk 12 = false ∧ Config.widthOk 0 = false ∧ Config.widthOk 40 = false ∧
    ({ Config.reference with pcw := 12 } : Config).wf = false ∧
    ({ Config.reference with tw := 40 } : Config).wf = false := by decide +kernel

theorem test_bad_ring_sizes_are_refused :
    ({ Config.reference with cap := 256 } : Config).ringOk = false ∧
    ({ Config.reference with short := 0 } : Config).ringOk = false ∧
    ({ Config.reference with wHigh := 3 } : Config).ringOk = false ∧
    ({ Config.reference with wHigh := 9 } : Config).wf = false := by decide +kernel

theorem test_equal_thresholds_are_refused :
    ({ Config.reference with tDown := 100 } : Config).thresholdsOk = false ∧
    ({ Config.reference with tDown := 100 } : Config).wf = false := by decide +kernel

theorem test_zero_rate_scale_is_refused :
    ({ Config.reference with k := 0 } : Config).scalesOk = false ∧
    ({ Config.reference with driftC := 4294967296 } : Config).wf = false := by decide +kernel

theorem test_step_refuses_an_illFormed_configuration :
    step (State.resetWith { Config.reference with k := 0 }) = .refused .badConfig := rfl

/-! ### Decode: one word per row, written out from R81, R82 and R84 -/

theorem test_decode_framing_and_interrupts :
    decode 0x080000A500000000 = .instr (.frmByte 0xA5) ∧
    decode 0x1000000000000000 = .instr .irqDisable ∧
    decode 0x1800000000000000 = .instr .irqEnable ∧
    decode 0x2000000000000000 = .instr .irqSaveDisable ∧
    decode 0x2800000000000000 = .instr (.irqRestore false) ∧
    decode 0x2800000100000000 = .instr (.irqRestore true) := by decide +kernel

theorem test_decode_counter_and_timer :
    decode 0x3000000000000000 = .instr .cntRead ∧
    decode 0x3800000000000000 = .instr .cntReadReset ∧
    decode 0x4000000000000003 = .instr (.tmrArm .total 3) ∧
    decode 0x4000000100000002 = .instr (.tmrArm .interval 2) ∧
    decode 0x4800000000000000 = .instr .tmrReadSync ∧
    decode 0x5000000000000000 = .instr .tmrReadFinished := by decide +kernel

theorem test_decode_ring_and_math :
    decode 0x5800000000000000 = .instr .rbCopy ∧
    decode 0x6000000000000065 = .instr (.rbSelect 101) ∧
    decode 0x6800000000000008 = .instr (.rbStats 8) ∧
    decode 0x7000000000000000 = .instr .rbExcursion ∧
    decode 0x7800000000000000 = .instr .rbDrift ∧
    decode 0x8000000000000000 = .instr .rbShrink ∧
    decode 0x8800000C00000000 = .instr (.snapRead 12) ∧
    decode 0x90000000FFFFFFFF = .instr (.isqrt 0xFFFFFFFF) ∧
    decode 0x9800040200000005 = .instr (.fmt 5 2 4) := by decide +kernel

/-- V-ENC-11 to V-ENC-18. -/
theorem test_illegal_words_are_refused_by_name :
    decode 0x0000000000000000 = .illegal .opcode ∧ decode 0xA000000000000000 = .illegal .opcode ∧
    decode 0xF800000000000000 = .illegal .opcode ∧
    decode 0x1000000000000001 = .illegal .mustBeZero ∧
    decode 0x2800000200000000 = .illegal .mustBeZero ∧
    decode 0x4000000200000005 = .illegal .mustBeZero ∧
    decode 0x9001000000000010 = .illegal .mustBeZero ∧
    decode 0x0800010000000000 = .illegal .mustBeZero := by decide +kernel

theorem test_table_words_reach_the_decoder :
    decodeTableWord 64 0x9800040200000005 = some (.fmt 5 2 4) ∧ decodeTableWord 64 0 = none := by
  decide +kernel

theorem test_placed_word_is_the_next_request :
    (stepped (State.reset.withFetchWord 64 0x1800000000000000)).irq.ie = true := by decide +kernel

/-! ### One step of each operation (95_test_vectors section 2) -/

/-- V-FRM-8 and V-FRM-7: 63 is the longest length, 64 is outside. -/
theorem test_frmByte_length_bound :
    (after (.frmByte 0x3F) (inFrame .length State.reset)).frm.fstate = .payload ∧
    (after (.frmByte 0x40) (inFrame .length State.reset)).status = ⟨true, .badLength⟩ ∧
    (after (.frmByte 0x40) (inFrame .length State.reset)).out =
      [.diag .badLength, .restart .badLength] := by decide +kernel

/-- V-FRM-3: the last byte of the frame 10 02 01 02 15. -/
theorem test_frmByte_dispatch :
    (after (.frmByte 0x15) { State.reset with
      frm := ⟨.checksum, 0, 0x10, 2, 2, 0x15⟩,
      mem := { State.reset.mem with pbuf := [1, 2] ++ List.replicate 62 9 } }).out =
        [.dispatch 0x10 2 [1, 2]] := by decide +kernel

/-- V-IRQ-2 to V-IRQ-5. -/
theorem test_irq_operations :
    (after .irqSaveDisable { State.reset with irq := ⟨true, false, false⟩ }).out = [.res 1] ∧
    (after .irqSaveDisable { State.reset with irq := ⟨true, false, false⟩ }).irq.ie = false ∧
    (after (.irqRestore true) State.reset).irq.ie = true ∧
    (after .irqDisable { State.reset with irq := ⟨true, true, true⟩ }).irq =
      ⟨false, true, true⟩ := by decide +kernel

/-- V-CNT-2, V-CNT-3. -/
theorem test_counter_reads :
    (after .cntRead { State.reset with ct := { State.reset.ct with pulse := 7 } }).ct.pulse = 7 ∧
    (after .cntReadReset { State.reset with ct := { State.reset.ct with pulse := 7 } }).out =
      [.res 7] ∧
    (after .cntReadReset { State.reset with ct := { State.reset.ct with pulse := 7 } }).ct.pulse =
      0 := by decide +kernel

/-- V-TMR-3 and V-TMR-5: SHADOW wraps; 0x10000 does not fit in 16 bits. -/
theorem test_arm_bounds :
    (after (.tmrArm .total 0xFFFF) State.reset).ct = ⟨0, 0xFFFF, 0, .total, 0xFFFF, false⟩ ∧
    (after (.tmrArm .total 0x10000) State.reset).fault =
      some ⟨.armRange, .request 0x4000000000010000⟩ := by decide +kernel

/-- V-TMR-6: ARM_ACTIVE is checked before ARM_RANGE. -/
theorem test_arm_active_first :
    (after (.tmrArm .total 0) (ticking .total 3 3 State.reset)).fault =
      some ⟨.armActive, .request 0x4000000000000000⟩ := by decide +kernel

/-- V-TMR-10. -/
theorem test_read_finished :
    (after .tmrReadFinished { State.reset with ct := ⟨0, 0, 1, .stopped, 3, true⟩ }).out =
      [.res 1] := by decide +kernel

/-- V-RS-4, the first byte read: the low byte of 0x0100. -/
theorem test_readSync_first_byte :
    (after .tmrReadSync (ticking .total 0x0100 0x0100 State.reset)).op =
      .tmrReadSync ⟨[1], 0⟩ ⟨[0, 1], 0⟩ := by decide +kernel

/-- V-RB-1, V-TMR-12: the rotation pushes PULSE into slot 0 and rearms. -/
theorem test_rotation :
    (stepped (sched [.tickIsr] (ticking .interval 1 2
      { State.reset with ct := { State.reset.ct with pulse := 4 } }))).mem.rb.head? = some 4 ∧
    (stepped (sched [.tickIsr] (ticking .interval 1 2
      { State.reset with ct := { State.reset.ct with pulse := 4 } }))).ct =
        ⟨0, 2, 3, .interval, 2, false⟩ := by decide +kernel

/-- V-RB-4, V-RB-5. -/
theorem test_copy_and_shrink :
    (after .rbCopy { State.reset with rbs := ⟨1, 8, .low, 7, 0⟩ }).rbs = ⟨1, 8, .low, 1, 8⟩ ∧
    (after .rbShrink { State.reset with rbs := ⟨1, 8, .low, 7, 6⟩ }).rbs =
      ⟨1, 4, .low, 7, 6⟩ := by decide +kernel

/-- V-SEL-1 to V-SEL-3. -/
theorem test_select_thresholds :
    (after (.rbSelect 101) filled).out = [.res 4] ∧
    (after (.rbSelect 100) filled).out = [.res 8] ∧
    (after (.rbSelect 80) { filled with rbs := ⟨7, 8, .high, 7, 8⟩ }).rbs.range = .high := by
  decide +kernel

/-- R206: the order of the two checks of the first micro-step. -/
theorem test_stats_checks :
    (after (.rbStats 300) { filled with rbs := ⟨7, 8, .low, 7, 3⟩ }).out = [.res 0] ∧
    (after (.rbStats 9) filled).fault = some ⟨.badWindow, .request 0x6800000000000009⟩ := by
  decide +kernel

/-- 95_test_vectors 1.8: d * d = 1296 against 7 * 44 = 308; the equal halves do not drift. -/
theorem test_drift :
    (after .rbDrift snapped).out = [.res 1] ∧
    (after .rbDrift { snapped with snap := ⟨true, 8, 80, 40, 40, 40, 10, 10, 12, true⟩ }).out =
      [.res 0] := by decide +kernel

/-- R208 by hand: rates 5 and 10, d * d = 25 against 20 * (5 * 1 div 4) = 20; rates 5 and 9, 16. -/
theorem test_excursion :
    (after .rbExcursion snapped).out = [.res 1] ∧
    (after .rbExcursion { snapped with snap := { snapped.snap with rshort := 9 } }).out =
      [.res 0] ∧
    (after .rbExcursion State.reset).fault =
      some ⟨.statsUnavailable, .request 0x7000000000000000⟩ := by decide +kernel

theorem test_snapRead :
    (after (.snapRead 4) snapped).out = [.res 4] ∧
    (after (.snapRead 13) snapped).fault = some ⟨.illegalOp, .request 0x8800000D00000000⟩ := by
  decide +kernel

/-- 95_test_vectors 1.2. -/
theorem test_isqrt :
    (after (.isqrt 0xFFFE0001) State.reset).out = [.res 0xFFFF] ∧
    (after (.isqrt 0xFFFE0000) State.reset).out = [.res 0xFFFE] := by decide +kernel

/-- 95_test_vectors 1.3: " 0.05". -/
theorem test_fmt :
    (after (.fmt 5 2 4) State.reset).out = [.str [0x20, 0x30, 0x2E, 0x30, 0x35]] ∧
    (after (.fmt 0 0 255) State.reset).fault =
      some ⟨.fmtRange, .request 0x9800FF0000000000⟩ := by decide +kernel

/-! ### Witnesses: encoding and the step -/

theorem witness_AcceptedWordIsTheEncoding : decode 0x9800040200000005 = .instr (.fmt 5 2 4) := by
  decide +kernel

theorem witness_StepRunsTheDecodedInstruction :
    (sched [.request 0x1800000000000000, .edge] State.reset).Ready ∧
    (sched [.request 0x1800000000000000, .edge] State.reset).op = .idle ∧
    decode 0x1800000000000000 = .instr .irqEnable := by decide +kernel

theorem witness_IllegalRequestRecordsFault :
    (sched [.request 0xA000000000000000] State.reset).Ready ∧
    (sched [.request 0xA000000000000000] State.reset).op = .idle ∧
    decode 0xA000000000000000 = .illegal .opcode := by decide +kernel

theorem witness_FaultedOrIllFormedBlockHasNoStep :
    (State.reset.cfg.wf = true ∧
      ({ State.reset with fault := some ⟨.armRange, .edgeHandler⟩ } : State).fault =
        some ⟨.armRange, .edgeHandler⟩) ∧
    (State.resetWith { Config.reference with k := 0 }).cfg.wf = false := by decide +kernel

theorem witness_HaltedBlockOnlyResets :
    (sched [.edge] { State.reset with status := ⟨true, .badLength⟩ }).cfg.wf = true ∧
    (sched [.edge] { State.reset with status := ⟨true, .badLength⟩ }).fault = none ∧
    (sched [.edge] { State.reset with status := ⟨true, .badLength⟩ }).status.halted = true ∧
    Move.edge ≠ .reset := by decide +kernel

theorem witness_NoStepChangesTheParameters :
    step (sched [.edge] State.reset) = .next (stepped (sched [.edge] State.reset)) :=
  eq_next_of_isSome (by decide +kernel)

theorem witness_ResetEventRestoresTheRegisters :
    (sched [.reset] { filled with status := ⟨true, .badChecksum⟩ }).cfg.wf = true ∧
    (sched [.reset] { filled with status := ⟨true, .badChecksum⟩ }).fault = none := by
  decide +kernel

theorem witness_InitialStateIsTheResetState : pmin1.wf = true ∧ retest.wf = true := by
  decide +kernel

/-! ### Witnesses: events, handlers, interrupt control -/

theorem witness_EventsSetTheirPendingFlag :
    (sched [.edge] State.reset).Ready ∧
    ((sched [.tick] (ticking .total 3 3 State.reset)).Ready ∧
      (sched [.tick] (ticking .total 3 3 State.reset)).ct.tmode = .total) ∧
    ((sched [.tick] (ticking .interval 3 3 State.reset)).Ready ∧
      (sched [.tick] (ticking .interval 3 3 State.reset)).ct.tmode = .interval) ∧
    ((sched [.tick] State.reset).Ready ∧ (sched [.tick] State.reset).ct.tmode = .idle) ∧
    ((sched [.tick] (ticking .stopped 0 3 State.reset)).Ready ∧
      (sched [.tick] (ticking .stopped 0 3 State.reset)).ct.tmode = .stopped) := by
  decide +kernel

theorem witness_TurnsWithNoEnabledStepDoNothing :
    ((sched [.request 0] { State.reset with op := .rbStats (.start Config.reference 4) }).Ready ∧
      (OpState.rbStats (.start Config.reference 4)) ≠ .idle) ∧
    ((sched [.micro] State.reset).Ready ∧ (sched [.micro] State.reset).op = .idle) ∧
    ((sched [.edgeIsr] State.reset).Ready ∧ State.reset.irq.ie = false) ∧
    ((sched [.tickIsr] { State.reset with irq := ⟨true, true, false⟩ }).Ready ∧
      ({ State.reset with irq := ⟨true, true, false⟩ } : State).irq.pendTick = false) := by
  decide +kernel

/-- The last count that fits and the one that overflows (V-CNT-5, V-CNT-6). -/
theorem witness_EdgeHandlerCountsOneEdge :
    ((sched [.edgeIsr] { State.reset with
        irq := ⟨true, true, false⟩, ct := { State.reset.ct with pulse := 65534 } }).Ready ∧
      65534 < 2 ^ Config.reference.pcw - 1) ∧
    ((sched [.edgeIsr] { State.reset with
        irq := ⟨true, true, false⟩, ct := { State.reset.ct with pulse := 65535 } }).Ready ∧
      65535 = 2 ^ Config.reference.pcw - 1) := by decide +kernel

theorem witness_TickHandlerCountsDown :
    ((sched [.tickIsr] (ticking .total 2 3 State.reset)).Ready ∧
      (2 : Nat) ≤ 2 ∧ 2 < 2 ^ Config.reference.tw) ∧
    ((sched [.tickIsr] (ticking .interval 65535 65535 State.reset)).Ready ∧
      (2 : Nat) ≤ 65535 ∧ 65535 < 2 ^ Config.reference.tw) := by decide +kernel

theorem witness_IntervalTickRotatesTheRing :
    (sched [.tickIsr] (ticking .interval 1 65535 filled)).Ready ∧
    (ticking .interval 1 65535 filled).irq = ⟨true, false, true⟩ ∧
    (ticking .interval 1 65535 filled).ct.live = 1 := by decide +kernel

theorem witness_TotalTickFinishesTheMeasurement :
    (sched [.tickIsr] (ticking .total 1 3 State.reset)).Ready ∧
    (ticking .total 1 3 State.reset).irq = ⟨true, false, true⟩ ∧
    (ticking .total 1 3 State.reset).ct.live = 1 := by decide +kernel

theorem witness_TickHandlerOfAStoppedTimer :
    (sched [.tickIsr] (ticking .stopped 0 3 State.reset)).Ready ∧
    (sched [.tickIsr] (ticking .idle 0 0 State.reset)).Ready ∧
    (ticking .idle 0 0 State.reset).irq = ⟨true, false, true⟩ := by decide +kernel

theorem witness_InterruptControlOperations :
    exec .irqSaveDisable { State.reset with irq := ⟨true, false, false⟩ } =
      .next (after .irqSaveDisable { State.reset with irq := ⟨true, false, false⟩ }) ∧
    (after .irqSaveDisable { State.reset with irq := ⟨true, false, false⟩ }).out =
      [] ++ [.res 1] :=
  ⟨eq_next_of_isSome (by decide +kernel), by decide +kernel⟩

theorem witness_EveryStepKeepsTheTimerInvariant :
    (sched [.tickIsr] (ticking .interval 1 2 State.reset)).TimerInv ∧
    step (sched [.tickIsr] (ticking .interval 1 2 State.reset)) =
      .next (stepped (sched [.tickIsr] (ticking .interval 1 2 State.reset))) :=
  ⟨by decide +kernel, eq_next_of_isSome (by decide +kernel)⟩

/-! ### Witnesses: counter and timer operations -/

theorem witness_TimerArmStartsTheCountdownOrFaults :
    (State.reset.ct.tmode = .idle ∧
      (1 ≤ (1 : Word).toNat ∧ (1 : Word).toNat < 2 ^ State.reset.cfg.tw) ∧
      (1 ≤ (65535 : Word).toNat ∧ (65535 : Word).toNat < 2 ^ State.reset.cfg.tw)) ∧
    (ticking .stopped 0 3 State.reset).ct.tmode ≠ .idle ∧
    (State.reset.ct.tmode = .idle ∧ (0 : Word).toNat = 0 ∧
      2 ^ State.reset.cfg.tw ≤ (65536 : Word).toNat) := by
  decide +kernel

/-- A read in progress with the bytes read so far, of a timer at 0x0100. -/
abbrev reading (l sh : ByteAcc) (ms : List Move) : State :=
  sched ms { ticking .total 0x0100 0x0100 State.reset with op := .tmrReadSync l sh }

/-- Each clause: bytes of LIVE left, two of SHADOW left, and its last byte with both outcomes. -/
theorem witness_ReadSyncMicroSteps :
    State.reset.cfg.wf = true ∧
    (reading ⟨[1], 0⟩ ⟨[0, 1], 0⟩ [.micro]).Ready ∧ ([1] : List Nat) ≠ [] ∧
    ((reading ⟨[], 0x0100⟩ ⟨[0, 1], 0⟩ [.micro]).Ready ∧ 2 ≤ ([0, 1] : List Nat).length) ∧
    ((reading ⟨[], 0x0100⟩ ⟨[1], 1⟩ [.micro]).Ready ∧
      (1 + 0x0101 / 256 ^ 1 % 256 * 256 ^ 1 + 2 ^ 16 - 0x0100) % 2 ^ 16 = 1) ∧
    ((reading ⟨[], 0x01FF⟩ ⟨[1], 1⟩ [.micro]).Ready ∧
      (1 + 0x0101 / 256 ^ 1 % 256 * 256 ^ 1 + 2 ^ 16 - 0x01FF) % 2 ^ 16 ≠ 1) := by
  decide +kernel

/-- What falls inside the attempts below: an edge, its handler, ticks, a dropped request. -/
abbrev disturbance : List Move := [.edge, .tick, .edgeIsr, .request 0]

/-- A read right after a retry, with a tick pending and IE = 0. -/
abbrev retried (ms : List Move) : State :=
  { reading ⟨[0, 1], 0⟩ ⟨[0, 1], 0⟩ ms with irq := ⟨false, false, true⟩ }

/-- V-RS-8 with other moves inside the attempt, from the accepting step; and an attempt after a retry,
with tick handler turns while IE = 0. -/
theorem witness_UndisturbedSyncReadSucceeds :
    ((sched ([.request (encode .tmrReadSync)] ++
        (disturbance ++ [.micro, .edge, .micro] ++ .micro :: [.edge]))
        (ticking .total 65535 65535 State.reset)).Ready ∧
      (ticking .total 65535 65535 State.reset).ct.live < 2 ^ Config.reference.tw ∧
      (ticking .total 65535 65535 State.reset).ct.shadow =
        (65535 + 1) % 2 ^ Config.reference.tw ∧
      (ticking .total 65535 65535 State.reset).AttemptStarts [.request (encode .tmrReadSync)] 3 ∧
      (ticking .total 65535 65535 State.reset).Admits (disturbance ++ [.micro, .edge, .micro]) ∧
      .tickIsr ∉ disturbance ++ [.micro, .edge, .micro] ∧
      (disturbance ++ [Move.micro, .edge, .micro]).count .micro + 1 = 3) ∧
    ((retried ([.tickIsr, .micro, .tick, .micro, .micro] ++ .micro :: [])).Ready ∧
      (retried []).ct.live < 2 ^ Config.reference.tw ∧
      (retried []).ct.shadow = ((retried []).ct.live + 1) % 2 ^ Config.reference.tw ∧
      (retried []).AttemptStarts [] 4 ∧
      (retried []).Admits [.tickIsr, .micro, .tick, .micro, .micro] ∧
      (retried []).irq.ie ≠ true ∧
      [Move.tickIsr, .micro, .tick, .micro, .micro].count .micro + 1 = 4) := by
  decide +kernel

/-- The statement's two ways, on V-RS-6 (the tick between the SHADOW bytes, low byte first: the attempt
succeeds with 0x0100) and on the tick between the LIVE bytes, low byte first, where the values are
inconsistent and the retry reads 0x00FF. -/
abbrev crossed (inside after : List Move) : State :=
  sched ([.request (encode .tmrReadSync)] ++
    (inside ++ .tickIsr :: (after ++ .micro :: (disturbance ++ [.micro, .micro, .micro] ++
      .micro :: []))))
    (ticking .total 0x0100 0x0100 State.reset)

theorem witness_SyncReadAcrossOneTickIsAnActualValue :
    ((crossed [.micro, .micro] [.edge]).Ready ∧ (crossed [.micro, .micro] [.edge]).TimerInv ∧
      (crossed [.micro, .micro] [.edge]).AttemptStarts [.request (encode .tmrReadSync)] 3 ∧
      (crossed [.micro, .micro] [.edge]).Admits
        ([.micro, .micro] ++ [.edge] ++ (disturbance ++ [.micro, .micro, .micro])) ∧
      .tickIsr ∉ [Move.micro, .micro] ++ [Move.edge] ++ (disturbance ++ [.micro, .micro, .micro]) ∧
      ([Move.micro, .micro] ++ [Move.edge]).count .micro + 1 = 3 ∧
      (disturbance ++ [Move.micro, .micro, .micro]).count .micro + 1 =
        2 * (Config.reference.tw / 8) ∧
      (ran 6 (crossed [.micro, .micro] [.edge])).op = .idle ∧
      (ran 6 (crossed [.micro, .micro] [.edge])).out = [.res 0x0100]) ∧
    (crossed [] [.micro, .micro]).Ready ∧ (crossed [] [.micro, .micro]).TimerInv ∧
    (ran 5 (crossed [] [.micro, .micro])).op = syncAttemptStart Config.reference ∧
    (ran 5 (crossed [] [.micro, .micro])).out = [] ∧
    (ran 13 (crossed [] [.micro, .micro])).op = .idle ∧
    (ran 13 (crossed [] [.micro, .micro])).out = [.res 0x00FF] := by
  decide +kernel

/-! ### Witnesses: unending runs -/

/-- The state after `s` under one move of a run, with no byte-order choice. -/
abbrev offered (m : Move) (s : State) : State := stepped (s.offer m [])

/-- A run that settles: three states and then the third for ever. -/
def settling (a b c : State) : Nat → State
  | 0 => a
  | 1 => b
  | _ + 2 => c

/-- Its moves: two, and then a micro turn for ever. -/
def settlingMoves (m n : Move) : Nat → Move
  | 0 => m
  | 1 => n
  | _ + 2 => .micro

/-- A settling sequence is a run where each of its three steps is one. -/
theorem settling_isRun {a b c : State} {m n : Move} (h0 : step (a.offer m []) = .next b)
    (h1 : step (b.offer n []) = .next c) (h2 : step (c.offer .micro []) = .next c) :
    IsRun (settling a b c) (settlingMoves m n)
  | 0 => ⟨[], h0⟩
  | 1 => ⟨[], h1⟩
  | _ + 2 => ⟨[], h2⟩

/-- Both handlers pending in a running timer, then each served. -/
abbrev pending : State := { ticking .interval 1 2 State.reset with irq := ⟨true, true, true⟩ }

abbrev pendingRun : Nat → State :=
  settling pending (offered .edgeIsr pending) (offered .tickIsr (offered .edgeIsr pending))

theorem witness_FairRunsServeTheHandlers :
    IsRun pendingRun (settlingMoves .edgeIsr .tickIsr) ∧
    WeaklyFair pendingRun (settlingMoves .edgeIsr .tickIsr) ∧
    (∀ j, 0 ≤ j → (pendingRun j).irq.ie = true ∧ (pendingRun j).status.halted = false ∧
      settlingMoves .edgeIsr .tickIsr j ≠ .reset) ∧
    (pendingRun 0).irq.pendEdge = true ∧
    ((pendingRun 0).TimerInv ∧ (pendingRun 0).ct.tmode.running = true ∧
      (pendingRun 0).irq.pendTick = true) := by
  refine ⟨settling_isRun (eq_next_of_nextOf (by decide +kernel)) (eq_next_of_nextOf (by decide +kernel))
    (eq_next_of_nextOf (by decide +kernel)), fun h k hk => ?_, fun j _ => ?_, by decide +kernel,
    by decide +kernel⟩
  · have hd : ¬ h.enabled (pendingRun 2) := by cases h <;> decide +kernel
    exact absurd (hk (k + 2) (Nat.le_add_right k 2)) hd
  · rcases j with _ | _ | j
    · decide +kernel
    · decide +kernel
    · have hc : (pendingRun 2).irq.ie = true ∧ (pendingRun 2).status.halted = false := by
        decide +kernel
      exact ⟨hc.1, hc.2, by simp [settlingMoves]⟩

/-- A running timer of one byte, so that a read takes two micro-steps, with no tick pending. -/
abbrev narrow : State :=
  { ticking .total 5 5 (State.resetWith { Config.reference with tw := 8 }) with
    irq := ⟨true, false, false⟩ }

abbrev narrowRun : Nat → State :=
  settling (offered (.request (encode .tmrReadSync)) narrow)
    (offered .micro (offered (.request (encode .tmrReadSync)) narrow))
    (offered .micro (offered .micro (offered (.request (encode .tmrReadSync)) narrow)))

theorem witness_SparseTicksEndTheSyncRead :
    IsRun narrowRun (settlingMoves .micro .micro) ∧
    TickSparse narrowRun (settlingMoves .micro .micro) ∧
    (narrowRun 0).TimerInv ∧ (narrowRun 0).status.halted = false ∧
    (∃ l sh, (narrowRun 0).op = .tmrReadSync l sh) ∧
    (∀ j, 0 ≤ j → settlingMoves .micro .micro j ≠ .reset) ∧
    (∀ j, 0 ≤ j → ∃ i, j ≤ i ∧ settlingMoves .micro .micro i = .micro) := by
  have hm : ∀ j, settlingMoves .micro .micro j = .micro := by rintro (_ | _ | j) <;> rfl
  refine ⟨settling_isRun (eq_next_of_nextOf (by decide +kernel)) (eq_next_of_nextOf (by decide +kernel))
    (eq_next_of_nextOf (by decide +kernel)), fun k hk => ?_, by decide +kernel, by decide +kernel,
    ⟨⟨[], 5⟩, ⟨[0], 0⟩, by decide +kernel⟩, fun j _ => by simp [hm], fun j _ => ⟨j, le_rfl, hm j⟩⟩
  exact absurd (show (narrowRun (k + 2)).op = .idle from
    (by decide +kernel : (narrowRun 2).op = .idle)) (hk (k + 2) (Nat.le_add_right k 2))

/-! ### Witnesses: framing -/

theorem witness_MagicMatchesOrResynchronizes :
    State.reset.frm.fstate = .magic ∧
    (0xF0 = magicByte Config.reference 3 ∧ (3 : BitVec 2) = 3) ∧
    (0xA5 = magicByte Config.reference 0 ∧ (0 : BitVec 2) ≠ 3) ∧
    (0xA5 ≠ magicByte retest 1 ∧ retest.magicRetest = true ∧ 0xA5 = retest.magic0) ∧
    (0xA5 ≠ magicByte Config.reference 1 ∧ Config.reference.magicRetest = false) := by
  decide +kernel

/-- The lengths on both sides of both bounds, with PMIN = 1 for the lower one. -/
theorem witness_CommandAndLengthBytes :
    (inFrame .command State.reset).frm.fstate = .command ∧
    (inFrame .length State.reset).frm.fstate = .length ∧
    ((0 : Byte).toNat < pmin1.pmin ∧ pmin1.maxPayload ≤ (64 : Byte).toNat) ∧
    (Config.reference.pmin ≤ (0 : Byte).toNat ∧ (0 : Byte).toNat < Config.reference.maxPayload) ∧
    (pmin1.pmin ≤ (1 : Byte).toNat ∧ (63 : Byte).toNat < pmin1.maxPayload ∧
      (1 : Byte) ≠ 0) := by decide +kernel

theorem witness_PayloadByteIsStoredAtItsIndex :
    ({ State.reset with frm := ⟨.payload, 0, 0, 64, 63, 0⟩ } : State).frm.fstate = .payload ∧
    (63 : Byte).toNat < Config.reference.maxPayload ∧
    State.reset.mem.pbuf.length = Config.reference.maxPayload := by decide +kernel

theorem witness_ChecksumByteDispatchesOrRestarts :
    ({ State.reset with frm := ⟨.checksum, 0, 0x20, 0, 0, 0x20⟩ } : State).frm.fstate =
      .checksum ∧
    (0 : Byte).toNat ≤ Config.reference.maxPayload ∧ (64 : Byte).toNat ≤ Config.reference.maxPayload ∧
    0x20 = chkFin Config.reference 0x20 ∧ 0x21 ≠ chkFin Config.reference 0x20 := by
  decide +kernel

theorem witness_EveryStepKeepsTheFramingInvariant :
    (sched [.request (encode (.frmByte 0xA5))] State.reset).FramingInv ∧
    step (sched [.request (encode (.frmByte 0xA5))] State.reset) =
      .next (stepped (sched [.request (encode (.frmByte 0xA5))] State.reset)) :=
  ⟨by decide +kernel, eq_next_of_isSome (by decide +kernel)⟩

/-- The frames of no payload and of two bytes (V-FRM-4, V-FRM-2 and V-FRM-3). -/
theorem witness_ValidFrameIsDispatched :
    (sched (byteRequests (wireFrame Config.reference 0x20 []) ++ []) State.reset).Ready ∧
    (sched (byteRequests (wireFrame Config.reference 0x10 [1, 2]) ++ [.edge]) State.reset).Ready ∧
    State.reset.FramingInv ∧ State.reset.op = .idle ∧ State.reset.frm.fstate = .magic ∧
    State.reset.frm.midx = 0 ∧
    (Config.reference.pmin ≤ ([] : List Byte).length ∧
      ([1, 2] : List Byte).length < Config.reference.maxPayload) := by decide +kernel

/-- V-FRM-10 with MAGIC_RETEST, the timer running and IE = 1: a frame begun and given up for a RESET, then
noise, a lone A5 and a whole frame with events, handlers and other requests between its bytes. -/
abbrev noisyFrame : State :=
  { ticking .interval 1 2 (State.resetWith retest) with
    moves := byteRequests [0xA5, 0x5A, 0x0F, 0xF0, 0x20] ++ .reset :: byteRequests [0x00, 0xA5] ++
      .edge :: .request (encode .irqEnable) :: byteRequests [0xA5, 0x5A] ++
      .edgeIsr :: .tick :: byteRequests [0x0F, 0xF0] ++ .request (encode .tmrReadSync) ::
      .request (encode (.frmByte 0xA5)) :: [.micro, .micro, .micro] ++ byteRequests [0x20, 0x00, 0x20] }

theorem witness_EveryDispatchIsAWholeFrame :
    noisyFrame.FramingInv ∧ noisyFrame.frm.fstate = .magic ∧ noisyFrame.frm.midx = 0 ∧
    noisyFrame.out = [] ∧ runSteps 24 noisyFrame = .next (ran 24 noisyFrame) ∧
    (.dispatch 0x20 0 []) ∈ (ran 24 noisyFrame).out ∧
    bytesFed [] 24 noisyFrame = [0x00, 0xA5, 0xA5, 0x5A, 0x0F, 0xF0, 0x20, 0x00, 0x20] :=
  ⟨by decide +kernel, by decide +kernel, by decide +kernel, by decide +kernel,
    eq_next_of_isSome (by decide +kernel), by decide +kernel, by decide +kernel⟩

/-! ### Witnesses: ring buffer and statistics -/

/-- Each clause at its threshold. -/
theorem witness_SelectFollowsTheNewRange :
    filled.cfg.wf = true ∧ filled.rbs.cValid.toNat ≤ filled.cfg.cap ∧ filled.rbs.range = .low ∧
    filled.cfg.tUp < (101 : Word).toNat ∧ (100 : Word).toNat ≤ filled.cfg.tUp ∧
    filled.cfg.tDown ≤ (80 : Word).toNat ∧ (79 : Word).toNat < filled.cfg.tDown ∧
    ({ filled with rbs := ⟨7, 8, .high, 7, 8⟩ } : State).rbs.range = .high := by decide +kernel

theorem witness_SelectedWindowIsAccepted :
    filled.cfg.wf = true ∧ filled.rbs.cValid.toNat ≤ filled.cfg.cap ∧
    filled.cfg.short ≤ filled.rbs.cValid.toNat := by decide +kernel

theorem witness_EstimatesInTheBandKeepTheRange :
    Config.reference.wf = true ∧
    ∀ x ∈ [80, 81, 100], Config.reference.tDown ≤ x ∧ x ≤ Config.reference.tUp := by
  decide +kernel

/-- C_VALID on both sides of SHORT, and windows on both sides of both bounds. -/
theorem witness_StatsFirstMicroStep :
    ({ filled with rbs := ⟨7, 8, .low, 7, 3⟩ } : State).rbs.cValid.toNat < filled.cfg.short ∧
    filled.cfg.short ≤ filled.rbs.cValid.toNat ∧ (3 : Word).toNat < filled.cfg.short ∧
    filled.rbs.cValid.toNat < (9 : Word).toNat ∧
    (filled.cfg.short ≤ (4 : Word).toNat ∧ (4 : Word).toNat ≤ filled.rbs.cValid.toNat) ∧
    (filled.cfg.short ≤ (8 : Word).toNat ∧ (8 : Word).toNat ≤ filled.rbs.cValid.toNat) := by
  decide +kernel

/-- The ring of `filled` under a rate scale that overflows: 4294967295 * 36 div 8. -/
abbrev scaled : State := { filled with cfg := { Config.reference with k := 4294967295 } }

theorem witness_UndisturbedStatsComputeTheSnapshot :
    (sched (.request (encode (.rbStats 8)) ::
      (List.replicate ((8 : Word).toNat * (Config.reference.pcw / 8) + 1) .micro ++ []))
        filled).Ready ∧
    filled.RingInv ∧ filled.op = .idle ∧
    (filled.cfg.short ≤ (8 : Word).toNat ∧ (8 : Word).toNat ≤ filled.rbs.cValid.toNat) ∧
    (filled.copySum 8 < 2 ^ 32 ∧ filled.cfg.k * filled.copySum 8 / 8 < 2 ^ 32 ∧
      filled.cfg.k * filled.copySum filled.cfg.short / filled.cfg.short < 2 ^ 32) ∧
    scaled.RingInv ∧ scaled.cfg.wf = true ∧
    2 ^ 32 ≤ scaled.cfg.k * scaled.copySum 8 / 8 := by decide +kernel

theorem witness_ExcursionTest :
    snapped.snap.avail = true ∧ State.reset.snap.avail = false := by decide +kernel

theorem witness_DriftTest :
    snapped.snap.avail = true ∧ State.reset.snap.avail = false := by decide +kernel

theorem witness_SnapReadDrivesTheNumberedRegister :
    ((0, 1) ∈ ([(0, if snapped.snap.avail then 1 else 0)] : List (Byte × Word))) ∧
    (((12 : Byte), snapped.rbs.cValid.setWidth 32) ∈
      ([(12, snapped.rbs.cValid.setWidth 32)] : List (Byte × Word))) ∧
    12 < (13 : Byte).toNat := by decide +kernel

theorem witness_PushesLeaveTheWindowIntact :
    filled.cfg.wf = true ∧ filled.mem.rb.length = filled.cfg.cap ∧
    filled.rbs.cursor.toNat < filled.cfg.cap ∧
    5 + [7, 8, 9].length ≤ filled.cfg.cap ∧ 4 < 5 := by decide +kernel

theorem witness_RingHoldsTheLastPushesInReverse :
    State.reset.cfg.wf = true ∧ State.reset.mem.rb.length = State.reset.cfg.cap ∧
    State.reset.rbs.cursor.toNat < State.reset.cfg.cap ∧
    State.reset.rbs.valid.toNat ≤ State.reset.cfg.cap ∧
    State.reset.cfg.cap ≤ [1, 2, 3, 4, 5, 6, 7, 8].length ∧
    State.reset.cfg.cap ≤ [1, 2, 3, 4, 5, 6, 7, 8, 9, 10].length := by decide +kernel

theorem witness_EveryStepKeepsTheRingInvariant :
    (sched [.tickIsr] (ticking .interval 1 2 filled)).RingInv ∧
    step (sched [.tickIsr] (ticking .interval 1 2 filled)) =
      .next (stepped (sched [.tickIsr] (ticking .interval 1 2 filled))) :=
  ⟨by decide +kernel, eq_next_of_isSome (by decide +kernel)⟩

/-- `filled` at the last micro-step of RB_STATS 8, with its sums read. -/
abbrev summed : State :=
  sched [.micro] { filled with op := .rbStats ⟨8, 8, .start 16, 36, 26, 26⟩ }

theorem witness_EveryStepKeepsTheSnapshotInvariant :
    summed.SnapshotInv ∧ step summed = .next (stepped summed) ∧
    (stepped summed).snap.avail = true :=
  ⟨by refine ⟨by decide +kernel, by decide +kernel, by decide +kernel, fun t ht => ?_⟩
      obtain rfl : ⟨8, 8, .start 16, 36, 26, 26⟩ = t := Option.some.inj ht
      decide +kernel,
    eq_next_of_isSome (by decide +kernel), by decide +kernel⟩

theorem witness_ResetMeetsTheInvariants : Config.reference.wf = true ∧ pmin1.wf = true := by
  decide +kernel

/-! ### Witnesses: whole-machine rules -/

/-- The steps that change the registers of each clause, one per clause. -/
theorem witness_MainLoopRegistersHaveTheirOneWriter :
    step (sched [.request (encode (.frmByte 0xA5))] State.reset) =
      .next (stepped (sched [.request (encode (.frmByte 0xA5))] State.reset)) ∧
    (stepped (sched [.request (encode (.frmByte 0xA5))] State.reset)).frm ≠ State.reset.frm ∧
    (stepped (sched [.request (encode (.rbSelect 101))] State.reset)).rbs.range ≠ .low ∧
    (stepped (sched [.request (encode .rbCopy)] { filled with rbs := ⟨7, 8, .low, 0, 0⟩ })).rbs.cValid
      ≠ 0 ∧
    (stepped summed).snap ≠ summed.snap ∧
    (stepped (sched [.request (encode .irqEnable)] State.reset)).irq.ie ≠ State.reset.irq.ie :=
  ⟨eq_next_of_isSome (by decide +kernel), by decide +kernel, by decide +kernel, by decide +kernel,
    by decide +kernel, by decide +kernel⟩

theorem witness_TimerAndRingHaveTheirWriters :
    step (sched [.tickIsr] (ticking .interval 1 2 filled)) =
      .next (stepped (sched [.tickIsr] (ticking .interval 1 2 filled))) ∧
    (stepped (sched [.tickIsr] (ticking .interval 1 2 filled))).ct.live ≠ 1 ∧
    (stepped (sched [.tickIsr] (ticking .interval 1 2 filled))).rbs.cursor ≠ filled.rbs.cursor ∧
    (stepped (sched [.tickIsr] (ticking .interval 1 2 filled))).irq.pendTick ≠ true ∧
    (stepped (sched [.request (encode (.tmrArm .total 3))] State.reset)).ct.reload ≠ 0 ∧
    (stepped (sched [.request (encode .rbShrink)] filled)).rbs.valid ≠ filled.rbs.valid ∧
    (stepped (sched [.edge] State.reset)).irq.pendEdge ≠ false ∧
    (stepped (sched [.edgeIsr] { State.reset with irq := ⟨true, true, false⟩ })).ct.pulse ≠ 0 :=
  ⟨eq_next_of_isSome (by decide +kernel), by decide +kernel, by decide +kernel, by decide +kernel,
    by decide +kernel, by decide +kernel, by decide +kernel, by decide +kernel⟩

theorem witness_FaultingStepWritesNothingElse :
    step (sched [.request 0] State.reset) = .next (stepped (sched [.request 0] State.reset)) ∧
    (stepped (sched [.request 0] State.reset)).fault ≠ none :=
  ⟨eq_next_of_isSome (by decide +kernel), by decide +kernel⟩

theorem witness_OnlyResetReturnsTheTimerToIdle :
    step (sched [.tickIsr] (ticking .total 1 3 State.reset)) =
      .next (stepped (sched [.tickIsr] (ticking .total 1 3 State.reset))) ∧
    (sched [.tickIsr] (ticking .total 1 3 State.reset)).moves.head? ≠ some .reset ∧
    (ticking .total 1 3 State.reset).ct.tmode ≠ .idle :=
  ⟨eq_next_of_isSome (by decide +kernel), by decide +kernel, by decide +kernel⟩

/-- The steps that send FINISHED_EVENT, EDGE_FEEDBACK, and DIAG with RESTART. -/
theorem witness_OutputEventsHaveTheirOneSender :
    step (sched [.tickIsr] (ticking .total 1 3 State.reset)) =
      .next (stepped (sched [.tickIsr] (ticking .total 1 3 State.reset))) ∧
    .finishedEvent ∈ (stepped (sched [.tickIsr] (ticking .total 1 3 State.reset))).out ∧
    .edgeFeedback ∈
      (stepped (sched [.edgeIsr] { State.reset with irq := ⟨true, true, false⟩ })).out ∧
    .diag .badLength ∈
      (stepped (sched [.request (encode (.frmByte 64))] (inFrame .length State.reset))).out :=
  ⟨eq_next_of_isSome (by decide +kernel), by decide +kernel, by decide +kernel, by decide +kernel⟩

/-- The invariant in the initial state; and, outside it, each frame that stops. -/
theorem witness_OnlyFramesOutsideTheBufferStop :
    (State.reset.FramingInv ∧ State.reset.fault = none) ∧
    (inFrame .payload State.reset).frm.fstate = .payload ∧
    Config.reference.maxPayload ≤ (64 : Byte).toNat ∧
    (inFrame .checksum State.reset).frm.fstate = .checksum ∧
    0 = chkFin Config.reference State.reset.frm.chkacc ∧
    Config.reference.maxPayload < (65 : Byte).toNat := by decide +kernel

/-! ### Witnesses: integer math -/

theorem witness_SquareRootIsTheFloor :
    0xFFFFFFFF < 2 ^ 32 ∧ 0xFFFF < 2 ^ 16 ∧ isqrt 0xFFFFFFFF = 0xFFFF ∧ isqrt 0 = 0 := by
  decide +kernel

/-- Both ends of the accepted operands, and each way out of range. -/
theorem witness_FormatDrivesTheString :
    (1 ≤ (1 : Byte).toNat ∧ (0 : Byte).toNat < (1 : Byte).toNat ∧
      (9 : Word).toNat < 10 ^ (1 : Byte).toNat) ∧
    ((6 : Byte).toNat ≤ 6 ∧ (5 : Byte).toNat < (6 : Byte).toNat ∧
      (999999 : Word).toNat < 10 ^ (6 : Byte).toNat) ∧
    (0 : Byte).toNat < 1 ∧ 6 < (7 : Byte).toNat ∧ (6 : Byte).toNat ≤ (6 : Byte).toNat ∧
    10 ^ (6 : Byte).toNat ≤ (1000000 : Word).toNat := by decide +kernel

theorem witness_FormatRoundTrip : 1 ≤ 6 ∧ 6 ≤ 6 ∧ 5 < 6 ∧ 999999 < 10 ^ 6 ∧ 0 < 10 ^ 6 := by
  decide +kernel

end Sys2Proof.Tests
end

section
/-! The parameters (spec/00_scope.md R7): no part of a step writes them. Each lemma goes through what
Laws/Ops and Laws/Effects say the part can do; every update they name leaves the parameters alone. -/

namespace Sys2Proof.Machine

open Sys2Proof

/-! ### The tick handler body (R162 to R165) -/

section
variable (s : State)

@[simp] theorem countDown_cfg : (countDown s).cfg = s.cfg := rfl

@[simp] theorem rotate_cfg : (rotate s).cfg = s.cfg := rfl

@[simp] theorem finish_cfg : (finish s).cfg = s.cfg := rfl

@[simp] theorem tickBody_cfg : (tickBody s).cfg = s.cfg := by
  rw [tickBody_eq]
  split
  · split
    · split <;> simp
    · simp
  · simp

end

/-! ### Micro-steps, operations, turns -/

section
variable {s t : State}

theorem syncStep_keeps_cfg {l sh : ByteAcc} (h : syncStep l sh s = .next t) : t.cfg = s.cfg := by
  obtain ⟨-, rfl⟩ | ⟨-, -, rfl⟩ | ⟨-, -, -, rfl⟩ | ⟨-, -, -, rfl⟩ := syncStep_next h
  all_goals simp

theorem statsStep_keeps_cfg {v : Traversal} (h : statsStep v s = .next t) : t.cfg = s.cfg := by
  obtain ⟨-, rfl⟩ | ⟨-, snap, -, rfl⟩ | ⟨-, -, rfl⟩ := statsStep_next h
  all_goals simp

theorem ExecEffect.keeps_cfg {i : Instr} (h : ExecEffect i s t) : t.cfg = s.cfg := by
  cases h with
  | tmrReadSync _ _ hsync => exact syncStep_keeps_cfg hsync
  | _ => simp

theorem TurnEffect.keeps_cfg {m : Move} (h : TurnEffect m s t) : t.cfg = s.cfg := by
  cases h with
  | instr _ _ _ _ _ _ hexec => exact hexec.keeps_cfg
  | sync _ _ _ _ _ hsync => exact syncStep_keeps_cfg hsync
  | stats _ _ _ _ hstats => exact statsStep_keeps_cfg hstats
  | _ => simp

/-- R7, R280: a step leaves the parameters as they are, whichever turn it takes. -/
theorem step_keeps_cfg (h : step s = .next t) : t.cfg = s.cfg := by
  obtain ⟨-, -, ⟨-, rfl⟩ | ⟨m, rest, -, ⟨-, -, rfl⟩ | ⟨-, hturn⟩⟩⟩ := step_effect h
  · simp
  · simp
  · simpa using hturn.keeps_cfg

end

/-- Settles O9, by the case analysis on the effects of a step. -/
theorem noStepChangesTheParameters : Obligations.NoStepChangesTheParameters :=
  fun _ _ => step_keeps_cfg

end Sys2Proof.Machine
end

section
/-! What a whole step can do, for the proofs over all steps: the inversion of a step to one turn, the
converse of the encoder, and what the micro-steps and the tick handler leave unchanged. -/

namespace Sys2Proof

/-! ### The request word of a decoded instruction (R81, R82) -/

/-- The converse of `Laws.EncodesItsRow.of_operands`: a word that fits the format of i is the word of
i, where i has read its operands from the word. -/
theorem encode_of_fits {w : Request} {i : Instr} (hop : (fieldOp w).toNat = i.opcode)
    (hfit : i.format.fits w = true)
    (hread : match i.format with
      | .op0 => i.operandC = 0 ∧ i.operandB = 0 ∧ i.operandA = 0
      | .opb | .opb1 => i.operandC = 0 ∧ i.operandB = fieldB w ∧ i.operandA = 0
      | .opa => i.operandC = 0 ∧ i.operandB = 0 ∧ i.operandA = fieldA w
      | .opab1 => i.operandC = 0 ∧ i.operandB = fieldB w ∧ i.operandA = fieldA w
      | .opabc => i.operandC = fieldC w ∧ i.operandB = fieldB w ∧ i.operandA = fieldA w) :
    encode i = w := by
  revert hfit hread
  cases i.format <;> intro hfit hread <;> simp [Format.fits] at hfit <;>
    exact encode_of_fields hop (by simp [hfit]) (by simp [hread, hfit]) (by simp [hread, hfit])
      (by simp [hread, hfit])

/-- A byte whose bits 7:1 are 0 is its bit 0. -/
theorem byte_of_lt_two {b : Byte} (h : b.toNat < 2) : b = if b.getLsbD 0 then 1 else 0 := by
  obtain h0 | h1 : b = 0 ∨ b = 1 := by
    simp only [← BitVec.toNat_inj]; simp; omega
  · rw [h0]; decide
  · rw [h1]; decide

/-- Operand B of TMR_ARM, read as a mode and written again, is its bit 0 (R161). -/
theorem armModeToB_armModeOfB (b : Byte) :
    armModeToB (armModeOfB b) = if b.getLsbD 0 then 1 else 0 := by
  unfold armModeOfB
  cases b.getLsbD 0 <;> rfl

/-- R82: the decoder drops no bit of a word it accepts. -/
theorem encode_of_decode {w : Request} {i : Instr} (h : decode w = .instr i) : encode i = w := by
  unfold decode at h
  split at h
  case h_5 hop =>
    obtain ⟨hfit, rfl⟩ := Format.accept_eq_instr.1 h
    have hb : (fieldB w).toNat < 2 := by simp [Format.fits] at hfit; omega
    exact encode_of_fits hop hfit ⟨rfl, (byte_of_lt_two hb).symm, rfl⟩
  case h_8 hop =>
    obtain ⟨hfit, rfl⟩ := Format.accept_eq_instr.1 h
    have hb : (fieldB w).toNat < 2 := by simp [Format.fits] at hfit; omega
    exact encode_of_fits hop hfit
      ⟨rfl, (armModeToB_armModeOfB _).trans (byte_of_lt_two hb).symm, rfl⟩
  case h_20 => cases h
  all_goals
    obtain ⟨hfit, rfl⟩ := Format.accept_eq_instr.1 h
    exact encode_of_fits ‹_› hfit ⟨rfl, rfl, rfl⟩

end Sys2Proof

namespace Sys2Proof.Machine

open Sys2Proof

section
variable {s t : State}

/-! ### Steps with no enabled agent (R45, R80, R152, R251, R8) -/

/-- R251: a recorded fault stops the block. -/
theorem step_of_fault {r : FaultRecord} (hw : s.cfg.wf = true) (hr : s.fault = some r) :
    step s = .fault (.modelFault r) := by
  simp [step, stepBlock, hw, hr]

/-- R8: a configuration that breaks R7 is refused. -/
theorem step_of_illFormed (hw : s.cfg.wf = false) : step s = .refused .badConfig := by
  simp [step, stepBlock, hw]

/-- R80: a busy port does not accept a request. -/
theorem present_busy (w : Request) (ho : s.op ≠ .idle) : present w s = .next s := by
  unfold present
  split
  · exact absurd ‹_› ho
  · rfl
  · rfl

/-- R45: an idle port has no micro-step. -/
theorem microStep_idle (ho : s.op = .idle) : microStep s = .next s := by
  unfold microStep; rw [ho]

/-- R152: the edge handler needs IE and its pending flag. -/
theorem takeTurn_edgeIsr_disabled (h : s.irq.ie = false ∨ s.irq.pendEdge = false) :
    takeTurn .edgeIsr s = .next s := by
  rcases h with h | h <;> simp [takeTurn, State.edgeHandlerEnabled, h]

/-- R152: the tick handler needs IE and its pending flag. -/
theorem takeTurn_tickIsr_disabled (h : s.irq.ie = false ∨ s.irq.pendTick = false) :
    takeTurn .tickIsr s = .next s := by
  rcases h with h | h <;> simp [takeTurn, State.tickHandlerEnabled, h]

/-! ### A step as one turn -/

/-- A step with a next state is one turn of its first move, from the state that has used the move up;
with nothing scheduled only the outputs are cleared. A halted block's turn does nothing (R250). -/
theorem step_turn (h : step s = .next t) :
    s.moves = [] ∧ t = s.beginMove [] ∨
      ∃ m rest, s.moves = m :: rest ∧ TurnEffect m (s.beginMove rest) t := by
  obtain ⟨-, -, ⟨hm, rfl⟩ | ⟨m, rest, hm, ⟨hne, -, rfl⟩ | ⟨-, hturn⟩⟩⟩ := step_effect h
  · exact .inl ⟨hm, by rw [State.beginMove, ← hm]; rfl⟩
  · exact .inr ⟨m, rest, hm, .nothing m _ hne⟩
  · exact .inr ⟨m, rest, hm, hturn⟩

/-- An invariant that does not look at the schedule or the outputs, and that every turn keeps, is kept
by every step. -/
theorem step_keeps {P : State → Prop} (hbegin : ∀ s rest, P s → P (s.beginMove rest))
    (hturn : ∀ m s t, TurnEffect m s t → P s → P t) (hp : P s) (h : step s = .next t) : P t := by
  obtain ⟨-, rfl⟩ | ⟨m, rest, -, hm⟩ := step_turn h
  · exact hbegin s [] hp
  · exact hturn m _ t hm (hbegin s rest hp)

/-! ### What the micro-steps and the tick handler body leave unchanged -/

/-- A micro-step of TMR_READ_SYNC writes no register of R46 but OPSTATE, and never begins a traversal
(R167). -/
theorem syncStep_frame {l sh : ByteAcc} (h : syncStep l sh s = .next t) :
    ∃ op out, op.traversal? = none ∧
      t = { s with op := op, picks := s.picks.tail, out := out } := by
  obtain ⟨-, rfl⟩ | ⟨-, -, rfl⟩ | ⟨-, -, -, rfl⟩ | ⟨-, -, -, rfl⟩ := syncStep_next h
  all_goals exact ⟨_, _, rfl, rfl⟩

/-- A later micro-step of RB_STATS writes only the snapshot, FAULT and OPSTATE (R206). -/
theorem statsStep_frame {v : Traversal} (h : statsStep v s = .next t) :
    ∃ snap fault op picks out,
      t = { s with snap := snap, fault := fault, op := op, picks := picks, out := out } := by
  obtain ⟨-, rfl⟩ | ⟨-, _, -, rfl⟩ | ⟨-, -, rfl⟩ := statsStep_next h
  all_goals exact ⟨_, _, _, _, _, rfl⟩

/-- The tick handler body writes the timer but not RELOAD, the ring with its cursor and count, and
PEND_TICK (R162 to R165). -/
theorem tickBody_frame (s : State) : ∃ ct rb cursor valid out,
    tickBody s = { s with
      irq := { s.irq with pendTick := false }
      ct := ct
      mem := { s.mem with rb := rb }
      rbs := { s.rbs with cursor := cursor, valid := valid }
      out := out } ∧ ct.reload = s.ct.reload := by
  rw [tickBody_eq]
  split
  · split
    · split <;> exact ⟨_, _, _, _, _, rfl, rfl⟩
    · exact ⟨_, _, _, _, _, rfl, rfl⟩
  · exact ⟨_, _, _, _, _, rfl, rfl⟩

end

/-- Settles O7, by the two lemmas on a step that stops. -/
theorem faultedOrIllFormedBlockHasNoStep : Obligations.FaultedOrIllFormedBlockHasNoStep :=
  fun _ => ⟨fun _ => step_of_fault, step_of_illFormed⟩

/-- Settles O13, by the lemma for each agent's turn without an enabled step. -/
theorem turnsWithNoEnabledStepDoNothing : Obligations.TurnsWithNoEnabledStepDoNothing := by
  intro s m rest ⟨hw, hf, hh⟩ hm hnone
  rw [step_ready hw hf hh hm]
  obtain ⟨⟨w, rfl⟩, ho⟩ | ⟨rfl, ho⟩ | ⟨rfl, he⟩ | ⟨rfl, he⟩ := hnone
  · exact present_busy w ho
  · exact microStep_idle ho
  · exact takeTurn_edgeIsr_disabled he
  · exact takeTurn_tickIsr_disabled he

end Sys2Proof.Machine
end

section
/-! The invariants of the counter/timer unit, the ring buffer and the snapshot: each turn keeps them,
so each step does. A turn that writes no register an invariant speaks of keeps it by definition. -/

namespace Sys2Proof.Machine

open Sys2Proof

section
variable {s t : State}

/-! ### The timer (R33 to R38) -/

/-- R7: the timer has at least one bit. -/
theorem tw_pos {c : Config} (hwf : c.wf = true) : 0 < c.tw := by
  obtain ⟨-, -, -, ⟨hlow, -⟩, -⟩ := (config_wf_iff c).1 hwf
  omega

/-- The decrement of R162 where LIVE ≥ 1. -/
theorem countDown_live (hlt : s.ct.live < 2 ^ s.cfg.tw) (hpos : 1 ≤ s.ct.live) :
    (countDown s).ct.live = s.ct.live - 1 := by
  show (s.ct.live + 2 ^ s.cfg.tw - 1) % 2 ^ s.cfg.tw = _
  rw [show s.ct.live + 2 ^ s.cfg.tw - 1 = s.ct.live - 1 + 2 ^ s.cfg.tw by omega,
    Nat.add_mod_right, Nat.mod_eq_of_lt (by omega)]

/-- R162 to R165: the tick handler body keeps the handshake, whether the timer goes on, is rearmed or
stops. -/
theorem tickBody_keeps_timerInv (hinv : s.TimerInv) : (tickBody s).TimerInv := by
  rw [tickBody_eq]
  by_cases hr : s.ct.tmode.running = true
  case neg => rw [if_neg hr]; exact hinv
  obtain ⟨hwf, hreload, hle, -, hrun, hidle, hfin⟩ := hinv
  have hpos : 1 ≤ s.ct.live := hrun.1 hr
  have hdown := countDown_live (hle.trans_lt hreload) hpos
  have hle' : (countDown s).ct.live ≤ s.ct.reload := by omega
  have hshadow' : s.ct.live = ((countDown s).ct.live + 1) % 2 ^ s.cfg.tw := by
    rw [hdown, Nat.sub_add_cancel hpos, Nat.mod_eq_of_lt (hle.trans_lt hreload)]
  rw [if_pos hr]
  split
  case isFalse hlive =>
    exact ⟨hwf, hreload, hle', hshadow', ⟨fun _ => Nat.pos_of_ne_zero hlive, fun _ => hr⟩, hidle,
      hfin⟩
  case isTrue hlive =>
    split
    case isTrue =>
      have hstopped : TMode.stopped.running = true ↔ 1 ≤ (countDown s).ct.live := by
        simp [hlive, TMode.running]
      exact ⟨hwf, hreload, hle', hshadow', hstopped, nofun, fun _ => rfl, fun _ => rfl⟩
    case isFalse =>
      exact ⟨hwf, hreload, le_rfl, rfl, ⟨fun _ => hpos.trans hle, fun _ => hr⟩, hidle, hfin⟩

/-- An armed timer runs (R161, R36). -/
theorem armedMode_running (mode : ArmMode) : (armedMode mode).running = true ∧
    armedMode mode ≠ .idle ∧ armedMode mode ≠ .stopped := by
  cases mode <;> decide

/-- Of the operations only TMR_ARM writes the timer (R161), and it arms it for at least one tick. -/
theorem ExecEffect.keeps_timerInv {i : Instr} (h : ExecEffect i s t) (hinv : s.TimerInv) :
    t.TimerInv := by
  cases h with
  | tmrArm _ mode v _ hv =>
    obtain ⟨hrun, hidle, hstopped⟩ := armedMode_running mode
    exact ⟨hinv.1, hv.2, le_rfl, rfl, ⟨fun _ => hv.1, fun _ => hrun⟩, fun h => absurd h hidle,
      nofun, fun h => absurd h hstopped⟩
  | tmrReadSync _ _ hsync => obtain ⟨_, _, -, rfl⟩ := syncStep_frame hsync; exact hinv
  | _ => exact hinv

theorem TurnEffect.keeps_timerInv {m : Move} (h : TurnEffect m s t) (hinv : s.TimerInv) :
    t.TimerInv := by
  cases h with
  | instr _ _ _ _ _ _ hexec => exact hexec.keeps_timerInv hinv
  | sync _ _ _ _ _ hsync => obtain ⟨_, _, -, rfl⟩ := syncStep_frame hsync; exact hinv
  | stats _ _ _ _ hstats => obtain ⟨_, _, _, _, _, rfl⟩ := statsStep_frame hstats; exact hinv
  | tickHandler => exact tickBody_keeps_timerInv (s := s.setIe false) hinv
  | reset =>
    refine ⟨hinv.1, by simp, le_rfl, ?_, by simp [TMode.running], fun _ => rfl, nofun, nofun⟩
    exact (Nat.mod_eq_of_lt (Nat.one_lt_two_pow (tw_pos hinv.1).ne')).symm
  | _ => exact hinv

/-! ### The ring buffer and the pulse counter (R32, R39 to R43) -/

/-- The bounds on CAP and SHORT of R7. -/
theorem cap_bounds {c : Config} (hwf : c.wf = true) :
    0 < c.cap ∧ c.cap ≤ 255 ∧ c.short ≤ c.cap := by
  obtain ⟨-, -, -, -, ⟨hpos, hle, -, hshort, -⟩, -⟩ := (config_wf_iff c).1 hwf
  exact ⟨hpos, hle, hshort⟩

/-- R200: a push of a count that fits keeps the ring. -/
theorem push_keeps_ringInv {count : Nat} (hcount : count < 2 ^ s.cfg.pcw) (hinv : s.RingInv) :
    (push count s).RingInv := by
  obtain ⟨hwf, hmem, hpulse, -, -, hcopy⟩ := hinv
  obtain ⟨hpos, hle, -⟩ := cap_bounds hwf
  refine ⟨hwf, push_wf hcount hmem, hpulse, ?_, ?_, hcopy⟩
  · rw [push_cursor_toNat count s ⟨hpos, hle⟩]
    exact Nat.mod_lt _ hpos
  · rw [push_valid_toNat count s hle]
    exact min_le_right _ _

/-- R162 to R165: the tick handler body writes the ring only by pushing PULSE, which it then zeroes. -/
theorem tickBody_keeps_ringInv (hinv : s.RingInv) : (tickBody s).RingInv := by
  rw [tickBody_eq]
  split
  case isFalse => exact hinv
  split
  case isFalse => exact hinv
  split
  case isTrue => exact hinv
  case isFalse =>
    obtain ⟨hwf, hmem, -, hbounds⟩ := push_keeps_ringInv (s := s) hinv.2.2.1 hinv
    exact ⟨hwf, hmem, Nat.two_pow_pos _, hbounds⟩

/-- The operations that write a register or buffer of the ring invariant: FRM_BYTE the payload bytes,
CNT_READ_RESET the counter, RB_COPY the copies, RB_SHRINK the live count. -/
theorem ExecEffect.keeps_ringInv {i : Instr} (h : ExecEffect i s t) (hinv : s.RingInv) :
    t.RingInv := by
  obtain ⟨hwf, hmem, hpulse, hcursor, hvalid, hcopy⟩ := hinv
  cases h with
  | payload _ b =>
    exact ⟨hwf, Memory.storePayload_wf _ b hmem, hpulse, hcursor, hvalid, hcopy⟩
  | dispatch => exact ⟨hwf, forgetPayload_wf hmem, hpulse, hcursor, hvalid, hcopy⟩
  | cntReadReset => exact ⟨hwf, hmem, Nat.two_pow_pos _, hcursor, hvalid, hcopy⟩
  | rbCopy => exact ⟨hwf, hmem, hpulse, hcursor, hvalid, hcursor, hvalid⟩
  | rbShrink =>
    refine ⟨hwf, hmem, hpulse, hcursor, ?_, hcopy⟩
    calc (BitVec.ofNat 8 (min s.rbs.valid.toNat s.cfg.short)).toNat
        ≤ min s.rbs.valid.toNat s.cfg.short := Nat.mod_le _ _
      _ ≤ s.cfg.cap := (min_le_left _ _).trans hvalid
  | tmrReadSync _ _ hsync =>
    obtain ⟨_, _, -, rfl⟩ := syncStep_frame hsync
    exact ⟨hwf, hmem, hpulse, hcursor, hvalid, hcopy⟩
  | _ => exact ⟨hwf, hmem, hpulse, hcursor, hvalid, hcopy⟩

/-- R280: the RESET event puts both cursors on the last slot and empties both counts. -/
theorem takeReset_ringInv (hwf : s.cfg.wf = true) : (takeReset s).RingInv := by
  obtain ⟨hpos, hle, -⟩ := cap_bounds hwf
  have hcursor : (BitVec.ofNat 8 (s.cfg.cap - 1)).toNat < s.cfg.cap :=
    (Nat.mod_le _ _).trans_lt (by omega)
  exact ⟨hwf, takeReset_wf s, Nat.two_pow_pos _, hcursor, Nat.zero_le _, hcursor, Nat.zero_le _⟩

theorem TurnEffect.keeps_ringInv {m : Move} (h : TurnEffect m s t) (hinv : s.RingInv) :
    t.RingInv := by
  cases h with
  | instr _ _ _ _ _ _ hexec => exact hexec.keeps_ringInv hinv
  | sync _ _ _ _ _ hsync => obtain ⟨_, _, -, rfl⟩ := syncStep_frame hsync; exact hinv
  | stats _ _ _ _ hstats => obtain ⟨_, _, _, _, _, rfl⟩ := statsStep_frame hstats; exact hinv
  | edgeHandler _ _ _ hbelow =>
    obtain ⟨hwf, hmem, hpulse, hbounds⟩ := hinv
    exact ⟨hwf, hmem, by show s.ct.pulse + 1 < 2 ^ s.cfg.pcw; omega, hbounds⟩
  | tickHandler => exact tickBody_keeps_ringInv (s := s.setIe false) hinv
  | reset => exact takeReset_ringInv hinv.1
  | _ => exact hinv

/-! ### The snapshot (R44, R204 to R207) -/

/-- The sums of a traversal that `State.SnapshotInv` asks for: a good window, and both checkpoints taken
from the running total. -/
abbrev Traversal.Good (c : Config) (v : Traversal) : Prop :=
  c.short ≤ v.window.toNat ∧ v.window.toNat ≤ c.cap ∧ v.newer ≤ v.total ∧ v.short ≤ v.total

/-- The snapshot registers agree with one another, as `State.SnapshotInv` asks when they are
available. -/
abbrev Snapshot.Consistent (c : Config) (x : Snapshot) : Prop :=
  c.short ≤ x.window.toNat ∧ x.window.toNat ≤ c.cap ∧
  x.newer.toNat + x.older.toNat = x.total.toNat ∧
  x.rlong.toNat = c.k * x.total.toNat / x.window.toNat ∧
  x.rshort.toNat = c.k * x.short.toNat / c.short ∧
  x.tol.toNat = (if x.total = 0 then 0 else c.k2 / isqrt x.total.toNat) ∧
  (x.tolv = true ↔ 1 ≤ x.total.toNat)

/-- The snapshot invariant in the terms above. -/
theorem snapshotInv_iff : s.SnapshotInv ↔ s.RingInv ∧
    (s.snap.avail = false → s.snap = .zero) ∧ (s.snap.avail = true → s.snap.Consistent s.cfg) ∧
    ∀ v ∈ s.op.traversal?, v.Good s.cfg := Iff.rfl

/-- R205: a byte read keeps the sums, because a checkpoint is a copy of a total that only grows. -/
theorem Traversal.readByte_good {c : Config} {v : Traversal} (entry pick : Nat) (h : v.Good c) :
    (v.readByte c entry pick).Good c := by
  obtain ⟨hlow, hhigh, hnewer, hshort⟩ := h
  unfold Traversal.readByte
  dsimp only
  split
  case isFalse => exact ⟨hlow, hhigh, hnewer, hshort⟩
  case isTrue =>
    refine ⟨hlow, hhigh, ?_, ?_⟩
    · dsimp only [Traversal.addEntry]; split <;> omega
    · dsimp only [Traversal.addEntry]; split <;> omega

theorem zext32_toNat {n : Nat} (h : n < 2 ^ 32) : (zext32 n).toNat = n := by
  rw [zext32, BitVec.toNat_ofNat, Nat.mod_eq_of_lt h]

/-- R207: the tolerance is a 32-bit value. -/
theorem tolerance_lt {c : Config} (hk2 : c.k2 < 2 ^ 32) (total : Nat) :
    tolerance c total < 2 ^ 32 := by
  unfold tolerance
  split
  · positivity
  · exact (Nat.div_le_self _ _).trans_lt hk2

/-- R206, R207: what the last micro-step writes from the sums of a good traversal is consistent; no
register cuts its value, because OVERFLOW was checked. -/
theorem computeSnapshot_consistent {c : Config} {v : Traversal} {x : Snapshot} (hwf : c.wf = true)
    (hv : v.Good c) (hx : computeSnapshot c v.window.toNat v.total v.newer v.short = some x) :
    x.avail = true ∧ x.Consistent c := by
  obtain ⟨hlow, hhigh, hnewer, hshort⟩ := hv
  obtain ⟨-, hcap, -⟩ := cap_bounds hwf
  obtain ⟨-, -, -, -, -, -, -, -, hk2, -⟩ := (config_wf_iff c).1 hwf
  have htol := tolerance_lt hk2 v.total
  simp only [computeSnapshot, Option.ite_none_left_eq_some, Option.some.injEq, not_or,
    Nat.not_le] at hx
  obtain ⟨⟨htotal, hrlong, hrshort⟩, rfl⟩ := hx
  have hwindow : (BitVec.ofNat 8 v.window.toNat).toNat = v.window.toNat := by
    rw [BitVec.toNat_ofNat, Nat.mod_eq_of_lt (by omega)]
  have hzero : zext32 v.total = 0 ↔ v.total = 0 := by
    rw [← BitVec.toNat_inj, zext32_toNat htotal]; rfl
  refine ⟨rfl, ?_⟩
  simp only [Snapshot.Consistent, hwindow, zext32_toNat htotal, zext32_toNat hrlong,
    zext32_toNat hrshort, zext32_toNat htol, zext32_toNat (hnewer.trans_lt htotal),
    zext32_toNat (hshort.trans_lt htotal),
    zext32_toNat ((Nat.sub_le v.total v.newer).trans_lt htotal), true_and]
  exact ⟨hlow, hhigh, by omega, (if_congr hzero rfl rfl).symm, by simp; omega⟩

/-- A snapshot of zeros is consistent: after a RESET (R280) and where statistics are unavailable
(R204). -/
theorem snapshotInv_of_zero (hring : s.RingInv) (hsnap : s.snap = .zero)
    (hop : ∀ v ∈ s.op.traversal?, v.Good s.cfg) : s.SnapshotInv :=
  snapshotInv_iff.2 ⟨hring, fun _ => hsnap, fun h => (by rw [hsnap] at h; cases h), hop⟩

/-- Of the operations only the first micro-step of RB_STATS writes the snapshot or begins a traversal
(R204, R206). -/
theorem ExecEffect.keeps_snapshotInv {i : Instr} (h : ExecEffect i s t) (hinv : s.SnapshotInv) :
    t.SnapshotInv := by
  have hring : t.RingInv := h.keeps_ringInv hinv.1
  obtain ⟨-, hzero, hcons, hop⟩ := snapshotInv_iff.1 hinv
  cases h with
  | statsStart _ w hw =>
    obtain ⟨-, -, -, -, -, -, hvalid⟩ := hinv.1
    refine ⟨hring, hzero, hcons, fun v hv => ?_⟩
    cases hv
    exact ⟨hw.1, hw.2.trans hvalid, le_rfl, le_rfl⟩
  | statsUnavailable => exact snapshotInv_of_zero hring rfl hop
  | tmrReadSync _ _ hsync =>
    obtain ⟨_, _, hnone, rfl⟩ := syncStep_frame hsync
    exact ⟨hring, hzero, hcons, by simp [hnone]⟩
  | _ => exact ⟨hring, hzero, hcons, hop⟩

/-- R205, R206: a later micro-step of RB_STATS goes on with a good traversal, writes a consistent
snapshot, or records OVERFLOW. -/
theorem statsStep_keeps_snapshotInv {v : Traversal} (h : statsStep v s = .next t)
    (hop : s.op = .rbStats v) (hring : t.RingInv) (hinv : s.SnapshotInv) : t.SnapshotInv := by
  obtain ⟨-, hzero, hcons, hgood⟩ := snapshotInv_iff.1 hinv
  have hv : v.Good s.cfg := hgood v (by rw [hop]; rfl)
  obtain ⟨-, rfl⟩ | ⟨-, x, hx, rfl⟩ | ⟨-, -, rfl⟩ := statsStep_next h
  · refine ⟨hring, hzero, hcons, fun u hu => ?_⟩
    cases hu
    exact Traversal.readByte_good _ _ hv
  · obtain ⟨havail, hx⟩ := computeSnapshot_consistent hinv.1.1 hv hx
    exact ⟨hring, fun hnot => absurd (havail.symm.trans hnot) nofun, fun _ => hx, nofun⟩
  · exact ⟨hring, hzero, hcons, hgood⟩

theorem TurnEffect.keeps_snapshotInv {m : Move} (h : TurnEffect m s t) (hinv : s.SnapshotInv) :
    t.SnapshotInv := by
  have hring : t.RingInv := h.keeps_ringInv hinv.1
  cases h with
  | instr _ _ _ _ _ _ hexec => exact hexec.keeps_snapshotInv hinv
  | sync _ _ _ _ _ hsync =>
    obtain ⟨_, _, hnone, rfl⟩ := syncStep_frame hsync
    exact ⟨hring, hinv.2.1, hinv.2.2.1, by simp [hnone]⟩
  | stats _ _ v hop hstats => exact statsStep_keeps_snapshotInv hstats hop hring hinv
  | tickHandler =>
    obtain ⟨_, _, _, _, _, htick, -⟩ := tickBody_frame (s.setIe false)
    rw [htick] at hring ⊢
    exact ⟨hring, hinv.2⟩
  | reset => exact snapshotInv_of_zero hring rfl nofun
  | _ => exact ⟨hring, hinv.2⟩

end

/-- Settles O21, by the case analysis on the turns. -/
theorem everyStepKeepsTheTimerInvariant : Obligations.EveryStepKeepsTheTimerInvariant :=
  fun _ _ => step_keeps (fun _ _ => id) fun _ _ _ => TurnEffect.keeps_timerInv

/-- Settles O48, by the case analysis on the turns. -/
theorem everyStepKeepsTheRingInvariant : Obligations.EveryStepKeepsTheRingInvariant :=
  fun _ _ => step_keeps (fun _ _ => id) fun _ _ _ => TurnEffect.keeps_ringInv

/-- Settles O49, by the case analysis on the turns, with the ring invariant for the count that bounds
a window. -/
theorem everyStepKeepsTheSnapshotInvariant : Obligations.EveryStepKeepsTheSnapshotInvariant :=
  fun _ _ => step_keeps (fun _ _ => id) fun _ _ _ => TurnEffect.keeps_snapshotInv

end Sys2Proof.Machine
end

section
/-! R46's written-by column, read by writer: what each move can write, as the difference between the
state before a step and its next state. -/

namespace Sys2Proof.Machine

open Sys2Proof

/-- The registers and buffers of s, with what every move may write (OPSTATE, FAULT and the model's own
fields) as in t. -/
def State.withProgress (s t : State) : State :=
  { s with
    fault := t.fault, op := t.op, moves := t.moves, picks := t.picks, out := t.out
    freeCount := t.freeCount }

section
variable (s t : State)
@[simp] theorem State.withProgress_frm : (s.withProgress t).frm = s.frm := rfl
@[simp] theorem State.withProgress_mem : (s.withProgress t).mem = s.mem := rfl
@[simp] theorem State.withProgress_status : (s.withProgress t).status = s.status := rfl
@[simp] theorem State.withProgress_irq : (s.withProgress t).irq = s.irq := rfl
@[simp] theorem State.withProgress_ct : (s.withProgress t).ct = s.ct := rfl
@[simp] theorem State.withProgress_rbs : (s.withProgress t).rbs = s.rbs := rfl
@[simp] theorem State.withProgress_snap : (s.withProgress t).snap = s.snap := rfl
end

/-- The interrupt-control operations, the only writers of IE (R46, R154 to R157). -/
abbrev irqControls : List Instr :=
  [.irqDisable, .irqEnable, .irqSaveDisable, .irqRestore false, .irqRestore true]

/-- `Writes op r t m`: where OPSTATE is op, the move m, not RESET, can take the registers of r to
those of t. One constructor per writer of R46, whose equation takes from t the registers that
writer writes and all others from r. -/
inductive Writes (op : OpState) (r t : State) : Option Move → Prop where
  | nothing (m : Option Move) (ht : t = r) : Writes op r t m
  | frmByte (b : Byte)
      (ht : t = ((r.withFrm t.frm).withMem { r.mem with pbuf := t.mem.pbuf }).withStatus t.status) :
      Writes op r t (some (.request (encode (.frmByte b))))
  | irqControl (i : Instr) (hi : i ∈ irqControls) (ht : t = r.setIe t.irq.ie) :
      Writes op r t (some (.request (encode i)))
  | cntReadReset (ht : t = r.withCt { r.ct with pulse := t.ct.pulse }) :
      Writes op r t (some (.request (encode .cntReadReset)))
  | tmrArm (mode : ArmMode) (v : Word)
      (ht : t = (r.withCt { t.ct with pulse := r.ct.pulse }).withIrq
        { r.irq with pendTick := t.irq.pendTick }) :
      Writes op r t (some (.request (encode (.tmrArm mode v))))
  | rbCopy (ht : t = r.withRbs { r.rbs with cCursor := t.rbs.cCursor, cValid := t.rbs.cValid }) :
      Writes op r t (some (.request (encode .rbCopy)))
  | rbSelect (rate : Word) (ht : t = r.withRbs { r.rbs with range := t.rbs.range }) :
      Writes op r t (some (.request (encode (.rbSelect rate))))
  | rbShrink (ht : t = r.withRbs { r.rbs with valid := t.rbs.valid }) :
      Writes op r t (some (.request (encode .rbShrink)))
  | rbStats (w : Word) (ht : t = r.withSnap t.snap) :
      Writes op r t (some (.request (encode (.rbStats w))))
  | statsStep (v : Traversal) (ho : op = .rbStats v) (ht : t = r.withSnap t.snap) :
      Writes op r t (some .micro)
  | edge (ht : t = r.withIrq { r.irq with pendEdge := t.irq.pendEdge }) :
      Writes op r t (some .edge)
  | tick (ht : t = r.withIrq { r.irq with pendTick := t.irq.pendTick }) :
      Writes op r t (some .tick)
  | edgeIsr (ht : t = (r.withCt { r.ct with pulse := t.ct.pulse }).withIrq
      { r.irq with pendEdge := t.irq.pendEdge }) : Writes op r t (some .edgeIsr)
  | tickIsr (ht : t = (((r.withCt { t.ct with reload := r.ct.reload }).withMem
      { r.mem with rb := t.mem.rb }).withRbs
        { r.rbs with cursor := t.rbs.cursor, valid := t.rbs.valid }).withIrq
          { r.irq with pendTick := t.irq.pendTick }) : Writes op r t (some .tickIsr)

section
variable {s t : State}

/-- An operation writes only what R46 lets its request write. -/
theorem ExecEffect.writes {i : Instr} (h : ExecEffect i s t) :
    Writes s.op (s.withProgress t) t (some (.request (encode i))) := by
  cases h with
  | magicLast | magicMatch | magicMiss | command | lengthBad | lengthZero | lengthGood | payload
  | dispatch | checksumBad => exact .frmByte _ rfl
  | irqDisable | irqEnable | irqSaveDisable => exact .irqControl _ (by simp) rfl
  | irqRestore _ b => exact .irqControl _ (by cases b <;> simp) rfl
  | cntReadReset => exact .cntReadReset rfl
  | tmrArm => exact .tmrArm _ _ rfl
  | tmrReadSync _ _ hsync => obtain ⟨_, _, -, rfl⟩ := syncStep_frame hsync; exact .nothing _ rfl
  | rbCopy => exact .rbCopy rfl
  | rbSelect => exact .rbSelect _ rfl
  | rbShrink => exact .rbShrink rfl
  | statsUnavailable => exact .rbStats _ rfl
  | _ => exact .nothing _ rfl

/-- The tick handler ends with the IE = 1 it began with (R153), and does not write RELOAD. -/
theorem tickHandler_writes (hie : s.irq.ie = true)
    (ht : t = (tickBody (s.setIe false)).setIe true) :
    Writes s.op (s.withProgress t) t (some .tickIsr) := by
  obtain ⟨ct, rb, cursor, valid, out, hbody, hreload⟩ := tickBody_frame (s.setIe false)
  have hct : ct = { ct with reload := s.ct.reload } := by cases ct; cases hreload; rfl
  have hirq : ({ s.irq with ie := true, pendTick := false } : IrqCtl) =
      { s.irq with pendTick := false } := by rw [← hie]
  apply Writes.tickIsr
  rw [ht, hbody, hct]
  show State.withIrq _ { s.irq with ie := true, pendTick := false } = _
  rw [hirq]
  rfl

/-- A turn other than RESET writes only what R46 lets its move write. -/
theorem TurnEffect.writes {m : Move} (h : TurnEffect m s t) (hne : m ≠ .reset) :
    Writes s.op (s.withProgress t) t (some m) := by
  cases h with
  | instr _ _ w i _ hdecode hexec => exact encode_of_decode hdecode ▸ hexec.writes
  | sync _ _ _ _ _ hsync => obtain ⟨_, _, -, rfl⟩ := syncStep_frame hsync; exact .nothing _ rfl
  | stats _ _ v hop hstats =>
    obtain ⟨_, _, _, _, _, rfl⟩ := statsStep_frame hstats; exact .statsStep v hop rfl
  | edgeHandler => exact .edgeIsr rfl
  | tickHandler _ hie => exact tickHandler_writes hie rfl
  | edge => exact .edge rfl
  | tick => exact .tick rfl
  | reset => exact absurd rfl hne
  | _ => exact .nothing _ rfl

/-- A step other than RESET writes only what R46 lets its move, the first of the schedule, write. -/
theorem step_writes (h : step s = .next t) (hreset : s.moves.head? ≠ some .reset) :
    Writes s.op (s.withProgress t) t s.moves.head? := by
  obtain ⟨-, rfl⟩ | ⟨m, rest, hm, hturn⟩ := step_turn h
  · exact .nothing _ rfl
  · rw [hm] at hreset ⊢
    exact hturn.writes (by simpa using hreset)

end

/-- Settles O51, by the writers of a step: in each clause one writer is the one named, and every other
leaves the registers of the clause alone. -/
theorem mainLoopRegistersHaveTheirOneWriter : Obligations.MainLoopRegistersHaveTheirOneWriter := by
  intro s t h hreset
  have hw := step_writes h hreset
  generalize s.moves.head? = m at hw ⊢
  refine ⟨fun hne => ?_, fun hne => ?_, fun hne => ?_, fun hne => ?_, fun hne => ?_⟩
  · cases hw with
    | frmByte b => exact ⟨b, rfl⟩
    | _ => rw [‹t = _›] at hne; simp at hne
  · cases hw with
    | rbSelect x => exact ⟨x, rfl⟩
    | _ => rw [‹t = _›] at hne; simp at hne
  · cases hw with
    | rbCopy => rfl
    | _ => rw [‹t = _›] at hne; simp at hne
  · cases hw with
    | rbStats w => exact .inl ⟨w, rfl⟩
    | statsStep v hop => exact .inr ⟨v, hop, rfl⟩
    | _ => rw [‹t = _›] at hne; simp at hne
  · cases hw with
    | irqControl i hi => exact ⟨i, hi, rfl⟩
    | _ => rw [‹t = _›] at hne; simp at hne

/-- Settles O52, in the same way. -/
theorem timerAndRingHaveTheirWriters : Obligations.TimerAndRingHaveTheirWriters := by
  intro s t h hreset
  have hw := step_writes h hreset
  generalize s.moves.head? = m at hw ⊢
  refine ⟨fun hne => ?_, fun hne => ?_, fun hne => ?_, fun hne => ?_, fun hne => ?_, fun hne => ?_,
    fun hne => ?_⟩
  · cases hw with
    | tickIsr => exact .inl rfl
    | tmrArm mode v => exact .inr ⟨mode, v, rfl⟩
    | _ => rw [‹t = _›] at hne; simp at hne
  · cases hw with
    | tmrArm mode v => exact ⟨mode, v, rfl⟩
    | _ => rw [‹t = _›] at hne; simp at hne
  · cases hw with
    | edgeIsr => exact .inl rfl
    | tickIsr => exact .inr (.inl rfl)
    | cntReadReset => exact .inr (.inr rfl)
    | _ => rw [‹t = _›] at hne; simp at hne
  · cases hw with
    | tickIsr => rfl
    | _ => rw [‹t = _›] at hne; simp at hne
  · cases hw with
    | tickIsr => exact .inl rfl
    | rbShrink => exact .inr rfl
    | _ => rw [‹t = _›] at hne; simp at hne
  · cases hw with
    | edge => exact .inl rfl
    | edgeIsr => exact .inr rfl
    | _ => rw [‹t = _›] at hne; simp at hne
  · cases hw with
    | tick => exact .inl rfl
    | tickIsr => exact .inr (.inl rfl)
    | tmrArm mode v => exact .inr (.inr ⟨mode, v, rfl⟩)
    | _ => rw [‹t = _›] at hne; simp at hne

end Sys2Proof.Machine
end

section
/-! Progress (R61, R120): which parts of a step always answer a next state. Only two of them can stop,
a payload byte and a matching checksum byte, and only where the frame lies outside PBUF; the framing
invariant keeps it inside. -/

namespace Sys2Proof.Machine

open Sys2Proof

/-- The outcome is a next state: neither a fault nor a refusal. -/
abbrev Answers (r : Result) : Prop := ∃ t, r = .next t

/-- A choice between two outcomes that are next states is one. -/
theorem answers_ite {c : Prop} [Decidable c] {r r' : Result} (h : Answers r) (h' : Answers r') :
    Answers (if c then r else r') := by
  split
  · exact h
  · exact h'

/-- The index of the next payload byte, and the length of the frame to dispatch, lie inside PBUF
(R61). -/
abbrev State.FrameInside (s : State) : Prop :=
  (s.frm.fstate = .payload → s.frm.pidx.toNat < s.cfg.maxPayload) ∧
  (s.frm.fstate = .checksum → s.frm.flen.toNat ≤ s.cfg.maxPayload)

section
variable {s : State}

/-- The framing invariant bounds PIDX by FLEN, and FLEN by MAX_PAYLOAD. -/
theorem frameInside_of_framingInv (hinv : s.FramingInv) : s.FrameInside := by
  obtain ⟨-, -, -, -, -, -, -, -, hpayload, hchecksum⟩ := hinv
  refine ⟨fun hf => ?_, fun hf => ?_⟩
  · obtain ⟨-, hidx, -, hlen, -⟩ := hpayload hf
    exact hidx.trans hlen
  · obtain ⟨-, hlen, -⟩ := hchecksum hf
    exact hlen.le

/-! ### FRM_BYTE (R120, R125, R126) -/

theorem execFrmByte_payload (b : Byte) (hf : s.frm.fstate = .payload) :
    execFrmByte b s = frmPayload b s := by
  unfold execFrmByte; rw [hf]

theorem execFrmByte_checksum (b : Byte) (hf : s.frm.fstate = .checksum) :
    execFrmByte b s = frmChecksum b s := by
  unfold execFrmByte; rw [hf]

theorem frmPayload_of_outside (b : Byte) (hidx : s.cfg.maxPayload ≤ s.frm.pidx.toNat) :
    frmPayload b s = .fault .pbufIndex :=
  if_neg hidx.not_gt

theorem frmChecksum_of_outside {b : Byte} (hb : b = chkFin s.cfg s.frm.chkacc)
    (hlen : s.cfg.maxPayload < s.frm.flen.toNat) : frmChecksum b s = .fault .pbufIndex :=
  (if_pos hb).trans (if_neg hlen.not_ge)

theorem frmPayload_answers (b : Byte) (hidx : s.frm.pidx.toNat < s.cfg.maxPayload) :
    Answers (frmPayload b s) :=
  ⟨_, if_pos hidx⟩

theorem frmChecksum_answers (b : Byte) (hlen : s.frm.flen.toNat ≤ s.cfg.maxPayload) :
    Answers (frmChecksum b s) :=
  answers_ite ⟨_, if_pos hlen⟩ ⟨_, rfl⟩

/-- R120: every byte is accepted in every state of a frame inside PBUF. -/
theorem execFrmByte_answers (b : Byte) (hframe : s.FrameInside) : Answers (execFrmByte b s) := by
  obtain ⟨hidx, hlen⟩ := hframe
  unfold execFrmByte
  cases hf : s.frm.fstate with
  | magic => exact answers_ite (answers_ite ⟨_, rfl⟩ ⟨_, rfl⟩) ⟨_, rfl⟩
  | command => exact ⟨_, rfl⟩
  | length => exact answers_ite ⟨_, rfl⟩ (answers_ite ⟨_, rfl⟩ ⟨_, rfl⟩)
  | payload => exact frmPayload_answers b (hidx hf)
  | checksum => exact frmChecksum_answers b (hlen hf)

/-! ### Micro-steps and operations -/

theorem syncStep_answers (l sh : ByteAcc) : Answers (syncStep l sh s) :=
  answers_ite (answers_ite (answers_ite ⟨_, rfl⟩ ⟨_, rfl⟩) ⟨_, rfl⟩) ⟨_, rfl⟩

theorem statsStep_answers (v : Traversal) : Answers (statsStep v s) := by
  refine answers_ite ⟨_, rfl⟩ ?_
  unfold statsFinish
  split
  · exact ⟨_, rfl⟩
  · exact ⟨_, rfl⟩

/-- An operation with operands out of range records a fault in a next state (R251); only FRM_BYTE
needs the frame inside PBUF. -/
theorem exec_answers (i : Instr) (hframe : s.FrameInside) : Answers (exec i s) := by
  cases i with
  | frmByte b => exact execFrmByte_answers b hframe
  | tmrArm => exact answers_ite ⟨_, rfl⟩ (answers_ite ⟨_, rfl⟩ ⟨_, rfl⟩)
  | tmrReadSync => exact syncStep_answers _ _
  | rbStats => exact answers_ite (answers_ite ⟨_, rfl⟩ ⟨_, rfl⟩) ⟨_, rfl⟩
  | rbExcursion | rbDrift | fmt => exact answers_ite ⟨_, rfl⟩ ⟨_, rfl⟩
  | snapRead sel =>
    simp only [exec, execSnapRead]
    split
    · exact ⟨_, rfl⟩
    · exact ⟨_, rfl⟩
  | irqDisable | irqEnable | irqSaveDisable | irqRestore | cntRead | cntReadReset | tmrReadFinished
  | rbCopy | rbSelect | rbShrink | isqrt => exact ⟨_, rfl⟩

/-! ### Turns and steps -/

theorem present_answers (w : Request) (hframe : s.FrameInside) : Answers (present w s) := by
  by_cases ho : s.op = .idle
  · cases hd : decode w with
    | instr i => exact present_instr ho hd ▸ exec_answers i hframe
    | illegal why => exact ⟨_, present_illegal ho hd⟩
  · exact ⟨s, present_busy w ho⟩

theorem microStep_answers : Answers (microStep s) := by
  unfold microStep
  split
  · exact ⟨s, rfl⟩
  · exact syncStep_answers _ _
  · exact statsStep_answers _

theorem takeTurn_answers (m : Move) (hframe : s.FrameInside) : Answers (takeTurn m s) := by
  cases m with
  | request w => exact present_answers w hframe
  | micro => exact microStep_answers
  | edgeIsr => exact answers_ite (answers_ite ⟨_, rfl⟩ ⟨_, rfl⟩) ⟨s, rfl⟩
  | tickIsr => exact answers_ite ⟨_, rfl⟩ ⟨s, rfl⟩
  | edge | tick | reset => exact ⟨_, rfl⟩

/-- A well-formed block without a fault whose frame is inside PBUF has a next state, whatever is
scheduled. -/
theorem step_answers (hwf : s.cfg.wf = true) (hfault : s.fault = none) (hframe : s.FrameInside) :
    Answers (step s) := by
  cases hm : s.moves with
  | nil => exact ⟨_, step_next.2 ⟨hwf, hfault, .inl ⟨hm, rfl⟩⟩⟩
  | cons m rest =>
    have hmove : Answers (runMove m (s.beginMove rest)) :=
      answers_ite ⟨_, rfl⟩ (answers_ite ⟨_, rfl⟩ (takeTurn_answers m hframe))
    obtain ⟨t, ht⟩ := hmove
    exact ⟨t, step_next.2 ⟨hwf, hfault, .inr ⟨m, rest, hm, ht⟩⟩⟩

end

/-- Settles O56: the framing invariant keeps the frame inside PBUF, so the step answers; outside PBUF
the two transition functions of the framing unit that use the buffer stop. -/
theorem onlyFramesOutsideTheBufferStop : Obligations.OnlyFramesOutsideTheBufferStop := by
  refine ⟨fun s hinv hfault => ?_, fun s b => ⟨fun hf hidx => ?_, fun hf hb hlen => ?_⟩⟩
  · have hframe : s.FrameInside := frameInside_of_framingInv hinv
    obtain ⟨hwf, -⟩ := hinv
    exact step_answers hwf hfault hframe
  · exact (execFrmByte_payload b hf).trans (frmPayload_of_outside b hidx)
  · exact (execFrmByte_checksum b hf).trans (frmChecksum_of_outside hb hlen)

end Sys2Proof.Machine
end

section
/-! The encoding (spec/30_encoding.md R81 to R85): the decoder as one equation over the operation codes,
the must-be-zero column of R82 as a mask, and the two directions of decode and encode. -/

namespace Sys2Proof

/-! ### The decoder, by operation code (R84) -/

/-- The operation of i with the operands that stand in the word w. -/
def Instr.readFrom (w : Request) : Instr → Instr
  | .frmByte _ => .frmByte (fieldB w)
  | .irqRestore _ => .irqRestore (savedOfB (fieldB w))
  | .tmrArm _ _ => .tmrArm (armModeOfB (fieldB w)) (fieldA w)
  | .rbSelect _ => .rbSelect (fieldA w)
  | .rbStats _ => .rbStats (fieldA w)
  | .snapRead _ => .snapRead (fieldB w)
  | .isqrt _ => .isqrt (fieldA w)
  | .fmt _ _ _ => .fmt (fieldA w) (fieldB w) (fieldC w)
  | i => i

/-- A word with the operation code of i is held to the format of i and read as that operation. -/
theorem decode_of_opcode {w : Request} {i : Instr} (hop : (fieldOp w).toNat = i.opcode) :
    decode w = i.format.accept w (i.readFrom w) := by
  unfold decode
  rw [hop]
  cases i <;> rfl

/-- A word that also fits the format decodes. -/
theorem decode_of_fits {w : Request} {i : Instr} (hop : (fieldOp w).toNat = i.opcode)
    (hfit : i.format.fits w = true) : decode w = .instr (i.readFrom w) := by
  rw [decode_of_opcode hop]
  exact Format.accept_eq_instr.2 ⟨hfit, rfl⟩

/-! ### The round trip (R81, R82) -/

theorem savedOfB_toB (saved : Bool) : savedOfB (if saved then 1 else 0) = saved := by
  cases saved <;> rfl

theorem armModeOfB_armModeToB (mode : ArmMode) : armModeOfB (armModeToB mode) = mode := by
  cases mode <;> rfl

/-- The operands of i stand in its own word. -/
theorem readFrom_encode (i : Instr) : i.readFrom (encode i) = i := by
  cases i with
  | irqRestore saved => simp only [Instr.readFrom, fieldB_encode, Instr.operandB, savedOfB_toB]
  | tmrArm mode v =>
    simp [Instr.readFrom, Instr.operandA, Instr.operandB, armModeOfB_armModeToB]
  | frmByte | snapRead => simp [Instr.readFrom, Instr.operandB]
  | rbSelect | rbStats | isqrt => simp [Instr.readFrom, Instr.operandA]
  | fmt => simp [Instr.readFrom, Instr.operandA, Instr.operandB, Instr.operandC]
  | _ => rfl

/-- R82: the word of i has zeros wherever the format of i wants them. -/
theorem format_fits_encode (i : Instr) : i.format.fits (encode i) = true := by
  cases i with
  | irqRestore saved => exact (Laws.EncodesItsRow.irqRestore saved).2
  | tmrArm mode v => exact (Laws.EncodesItsRow.tmrArm mode v).2
  | frmByte | snapRead | rbSelect | rbStats | isqrt =>
    refine (Laws.EncodesItsRow.of_operands _ ?_).2
    exact ⟨rfl, rfl⟩
  | fmt => exact (Laws.EncodesItsRow.of_operands _ trivial).2
  | _ =>
    refine (Laws.EncodesItsRow.of_operands _ ?_).2
    exact ⟨rfl, rfl, rfl⟩

theorem decode_encode (i : Instr) : decode (encode i) = .instr i := by
  rw [decode_of_fits (fieldOp_encode i) (format_fits_encode i), readFrom_encode]

/-- Settles O1, by the equation of the decoder at the operation code of i. -/
theorem decodeOfEncodeIsTheInstruction : Obligations.DecodeOfEncodeIsTheInstruction :=
  decode_encode

/-- Settles O2, by the converse of the encoder, format by format. -/
theorem acceptedWordIsTheEncoding : Obligations.AcceptedWordIsTheEncoding :=
  fun _ _ => encode_of_decode

theorem decode_of_encode_eq {w : Request} {i : Instr} (h : encode i = w) : decode w = .instr i :=
  h ▸ decode_encode i

/-- Settles O4: each word is the encoding of its operation. -/
theorem wordsOfTheSpecDecode : Obligations.WordsOfTheSpecDecode :=
  ⟨decode_of_encode_eq rfl, decode_of_encode_eq rfl, decode_of_encode_eq rfl,
    decode_of_encode_eq rfl, decode_of_encode_eq rfl, decode_of_encode_eq rfl,
    decode_of_encode_eq rfl⟩

/-! ### The must-be-zero bits as a mask (R82) -/

/-- The bits lo to lo + n - 1. -/
def fieldMask (lo n : Nat) : Request := (BitVec.allOnes n).setWidth 64 <<< lo

theorem getLsbD_fieldMask (lo n k : Nat) :
    (fieldMask lo n).getLsbD k = decide (k < 64 ∧ lo ≤ k ∧ k < lo + n) := by
  simp only [fieldMask, BitVec.getLsbD_shiftLeft, BitVec.getLsbD_setWidth, BitVec.getLsbD_allOnes,
    ← decide_not, ← Bool.decide_and]
  congr 1
  simp only [eq_iff_iff]
  omega

/-- The bits of w under the mask of a field are 0 exactly when the field is. -/
theorem and_fieldMask_eq_zero {w : Request} {lo n : Nat} :
    w &&& fieldMask lo n = 0 ↔ w.extractLsb' lo n = 0 := by
  simp only [BitVec.eq_of_getLsbD_eq_iff, BitVec.getLsbD_and, getLsbD_fieldMask,
    BitVec.getLsbD_extractLsb', BitVec.ofNat_eq_ofNat, BitVec.getLsbD_zero]
  constructor <;> intro h k hk
  · by_cases hlt : lo + k < 64
    · simpa [hlt, hk] using h (lo + k) hlt
    · simp [BitVec.getLsbD_of_ge w (lo + k) (Nat.le_of_not_lt hlt)]
  · by_cases hin : lo ≤ k ∧ k < lo + n
    · have hlt : k - lo < n := by omega
      have hbit : w.getLsbD k = false := by
        simpa [hlt, Nat.add_sub_cancel' hin.1] using h (k - lo) hlt
      rw [hbit, Bool.false_and]
    · simp [hin]

theorem and_or_eq_zero {w m m' : Request} :
    w &&& (m ||| m') = 0 ↔ w &&& m = 0 ∧ w &&& m' = 0 := by
  rw [BitVec.and_or_distrib_left]; exact BitVec.or_eq_zero_iff

/-- Bits 7:1 of operand B (R82). -/
theorem fieldB_lt_two {w : Request} : (fieldB w).toNat < 2 ↔ w.extractLsb' 33 7 = 0 := by
  rw [← BitVec.toNat_inj, fieldB_toNat, BitVec.extractLsb'_toNat, Nat.shiftRight_eq_div_pow]
  simp only [BitVec.ofNat_eq_ofNat, BitVec.toNat_ofNat]
  omega

/-- The must-be-zero bits of a format: the reserved field and the fields it does not read. -/
def Format.mask : Format → Request
  | .op0 => fieldMask 48 11 ||| (fieldMask 40 8 ||| (fieldMask 32 8 ||| fieldMask 0 32))
  | .opb => fieldMask 48 11 ||| (fieldMask 40 8 ||| fieldMask 0 32)
  | .opb1 => fieldMask 48 11 ||| (fieldMask 40 8 ||| (fieldMask 33 7 ||| fieldMask 0 32))
  | .opa => fieldMask 48 11 ||| (fieldMask 40 8 ||| fieldMask 32 8)
  | .opab1 => fieldMask 48 11 ||| (fieldMask 40 8 ||| fieldMask 33 7)
  | .opabc => fieldMask 48 11

theorem Format.fits_iff_mask (f : Format) (w : Request) : f.fits w = true ↔ w &&& f.mask = 0 := by
  cases f <;>
    simp only [Format.fits, Format.mask, and_or_eq_zero, and_fieldMask_eq_zero, Bool.and_eq_true,
      decide_eq_true_eq, fieldB_lt_two, and_assoc, and_true] <;> rfl

/-! ### The rows of the opcode map (R84, R85) -/

/-- The operation code and the must-be-zero bits of an instruction. -/
def Instr.row (i : Instr) : Nat × Request := (i.opcode, i.format.mask)

/-- The word w matches a row of the map: its top five bits are the code, its masked bits are 0. -/
def MatchesRow (w : Request) (row : Nat × Request) : Prop :=
  w.toNat / 2 ^ 59 = row.1 ∧ w &&& row.2 = 0

theorem matchesRow_iff {w : Request} {i : Instr} :
    MatchesRow w i.row ↔ (fieldOp w).toNat = i.opcode ∧ i.format.fits w = true := by
  rw [fieldOp_toNat, Format.fits_iff_mask]; rfl

/-- A word decodes exactly when it matches the row of some instruction. -/
theorem decode_isInstr_iff {w : Request} :
    (∃ i, decode w = .instr i) ↔ ∃ i : Instr, MatchesRow w i.row := by
  constructor
  · rintro ⟨i, h⟩
    rw [← encode_of_decode h]
    exact ⟨i, matchesRow_iff.2 ⟨fieldOp_encode i, format_fits_encode i⟩⟩
  · rintro ⟨i, h⟩
    obtain ⟨hop, hfit⟩ := matchesRow_iff.1 h
    exact ⟨_, decode_of_fits hop hfit⟩

theorem decode_isIllegal_iff {w : Request} :
    (∃ why, decode w = .illegal why) ↔ ¬ ∃ i, decode w = .instr i := by
  cases decode w <;> simp

/-- One instruction of each operation; a row does not depend on the operands. -/
def oneOfEach : List Instr :=
  [.frmByte 0, .irqDisable, .irqEnable, .irqSaveDisable, .irqRestore false, .cntRead, .cntReadReset,
    .tmrArm .total 0, .tmrReadSync, .tmrReadFinished, .rbCopy, .rbSelect 0, .rbStats 0, .rbExcursion,
    .rbDrift, .rbShrink, .snapRead 0, .isqrt 0, .fmt 0 0 0]

theorem row_mem_oneOfEach (i : Instr) : i.row ∈ oneOfEach.map Instr.row := by
  cases i <;> simp [oneOfEach, Instr.row, Instr.opcode, Instr.format]

theorem exists_mem_rows_iff {P : Nat × Request → Prop} :
    (∃ row ∈ oneOfEach.map Instr.row, P row) ↔ ∃ i : Instr, P i.row := by
  constructor
  · rintro ⟨row, hrow, hp⟩
    obtain ⟨i, -, rfl⟩ := List.mem_map.1 hrow
    exact ⟨i, hp⟩
  · rintro ⟨i, hp⟩
    exact ⟨i.row, row_mem_oneOfEach i, hp⟩

/-- Settles O3: the nineteen rows are those of the instructions, and a word decodes exactly when it
matches one of them. -/
theorem illegalWordsAreThoseOutsideTheMap : Obligations.IllegalWordsAreThoseOutsideTheMap := by
  intro w
  rw [decode_isIllegal_iff, decode_isInstr_iff, ← exists_mem_rows_iff]
  rfl

end Sys2Proof
end

section
/-! The operation port on one request (spec/30_encoding.md R80, R85): an accepted word runs the
instruction it decodes to, an illegal one records ILLEGAL_OP; and SNAP_READ, whose selector (R87) can
be illegal in itself. -/

namespace Sys2Proof.Machine

open Sys2Proof

section
variable {s : State}

/-! ### A request at a ready, idle block (R80, R85) -/

theorem step_request_instr {w : Request} {rest : List Move} {i : Instr} (hready : s.Ready)
    (hidle : s.op = .idle) (hmoves : s.moves = .request w :: rest) (hd : decode w = .instr i) :
    step s = exec i (s.beginMove rest) := by
  obtain ⟨hwf, hfault, hrun⟩ := hready
  exact (step_ready hwf hfault hrun hmoves).trans (present_instr hidle hd)

theorem step_request_illegal {w : Request} {rest : List Move} {why : Illegal} (hready : s.Ready)
    (hidle : s.op = .idle) (hmoves : s.moves = .request w :: rest) (hd : decode w = .illegal why) :
    step s = raiseFault .illegalOp (.request w) (s.beginMove rest) := by
  obtain ⟨hwf, hfault, hrun⟩ := hready
  exact (step_ready hwf hfault hrun hmoves).trans (present_illegal hidle hd)

/-! ### SNAP_READ (R87, R211) -/

theorem execSnapRead_of_some {sel : Byte} {v : Word} (h : s.snapRegister sel = some v) :
    execSnapRead sel s = .next (s.driveRes v) := by
  unfold execSnapRead; rw [h]

theorem execSnapRead_of_none {sel : Byte} (h : s.snapRegister sel = none) :
    execSnapRead sel s = raiseFault .illegalOp (originOf (.snapRead sel)) s := by
  unfold execSnapRead; rw [h]

theorem zext32_eq_setWidth {n : Nat} (x : BitVec n) : zext32 x.toNat = x.setWidth 32 :=
  BitVec.ofNat_toNat 32 x

theorem zext32_range (r : Range) :
    zext32 r.code.toNat = match r with | .low => 0 | .high => 1 := by
  cases r <;> rfl

/-- The table of R87: the selectors with the registers they number, zero-extended. -/
def State.snapTable (s : State) : List (Byte × Word) :=
  [(0, flagWord s.snap.avail), (1, s.snap.window.setWidth 32), (2, s.snap.total), (3, s.snap.newer),
    (4, s.snap.older), (5, s.snap.short), (6, s.snap.rlong), (7, s.snap.rshort), (8, s.snap.tol),
    (9, flagWord s.snap.tolv), (10, match s.rbs.range with | .low => 0 | .high => 1),
    (11, s.rbs.cCursor.setWidth 32), (12, s.rbs.cValid.setWidth 32)]

/-- The selector's register is the one the table lists. -/
theorem snapRegister_of_mem_snapTable {sel : Byte} {v : Word} (h : (sel, v) ∈ s.snapTable) :
    s.snapRegister sel = some v := by
  simp only [State.snapTable, ← zext32_eq_setWidth, ← zext32_range, List.mem_cons, Prod.mk.injEq,
    List.not_mem_nil, or_false] at h
  rcases h with ⟨rfl, rfl⟩ | ⟨rfl, rfl⟩ | ⟨rfl, rfl⟩ | ⟨rfl, rfl⟩ | ⟨rfl, rfl⟩ | ⟨rfl, rfl⟩ |
    ⟨rfl, rfl⟩ | ⟨rfl, rfl⟩ | ⟨rfl, rfl⟩ | ⟨rfl, rfl⟩ | ⟨rfl, rfl⟩ | ⟨rfl, rfl⟩ | ⟨rfl, rfl⟩ <;> rfl

theorem snapRegister_eq_none {sel : Byte} (h : 12 < sel.toNat) : s.snapRegister sel = none := by
  unfold State.snapRegister
  split
  case h_14 => rfl
  all_goals omega

theorem encode_snapRead_toNat (sel : Byte) :
    (encode (.snapRead sel)).toNat = 0x8800000000000000 + sel.toNat * 2 ^ 32 := by
  rw [encode, requestWord_toNat _ _ _ _ (Instr.opcode_lt _)]
  simp only [Instr.opcode, Instr.operandA, Instr.operandB, Instr.operandC, BitVec.ofNat_eq_ofNat,
    BitVec.toNat_ofNat]
  omega

end

/-- Settles O5: the port runs the instruction that the word decodes to. -/
theorem stepRunsTheDecodedInstruction : Obligations.StepRunsTheDecodedInstruction :=
  fun _ _ _ _ => step_request_instr

/-- Settles O6: the port raises ILLEGAL_OP, which writes FAULT alone. -/
theorem illegalRequestRecordsFault : Obligations.IllegalRequestRecordsFault :=
  fun _ _ _ _ => step_request_illegal

/-- Settles O45, by the table of R87. -/
theorem snapReadDrivesTheNumberedRegister : Obligations.SnapReadDrivesTheNumberedRegister :=
  fun _ sel _ => ⟨encode_snapRead_toNat sel,
    fun hmem => execSnapRead_of_some (snapRegister_of_mem_snapTable hmem),
    fun habove => execSnapRead_of_none (snapRegister_eq_none habove)⟩

end Sys2Proof.Machine
end

section
/-! A frame on the port (spec/41_framing.md R120 to R127): the transition each byte makes, the bytes of a
frame fed one request after the other, and the dispatch at its checksum byte. -/

namespace Sys2Proof.Machine

open Sys2Proof

section
variable {s : State}

/-! ### The transitions of a valid frame (R122 to R126) -/

theorem execFrmByte_magic (b : Byte) (hf : s.frm.fstate = .magic) :
    execFrmByte b s = frmMagic b s := by
  unfold execFrmByte; rw [hf]

theorem execFrmByte_command (b : Byte) (hf : s.frm.fstate = .command) :
    execFrmByte b s = frmCommand b s := by
  unfold execFrmByte; rw [hf]

theorem execFrmByte_length (b : Byte) (hf : s.frm.fstate = .length) :
    execFrmByte b s = frmLength b s := by
  unfold execFrmByte; rw [hf]

/-- R122: a matching byte that is not the last of MAGIC. -/
theorem frmMagic_match {b : Byte} (hb : b = magicByte s.cfg s.frm.midx) (hm : s.frm.midx ≠ 3) :
    frmMagic b s = .next (s.withFrm { s.frm with midx := s.frm.midx + 1 }) :=
  (if_pos hb).trans (if_neg hm)

/-- R122: the last byte of MAGIC. -/
theorem frmMagic_last {b : Byte} (hb : b = magicByte s.cfg s.frm.midx) (hm : s.frm.midx = 3) :
    frmMagic b s = .next (s.withFrm { s.frm with midx := 0, fstate := .command }) :=
  (if_pos hb).trans (if_pos hm)

/-- R124: the length of an empty payload. -/
theorem frmLength_zero (hmin : s.cfg.pmin = 0) (hmax : 0 < s.cfg.maxPayload) :
    frmLength 0 s = .next (s.withFrm { s.frm with
      flen := 0, chkacc := chkUpd s.cfg s.frm.chkacc 0, fstate := .checksum }) := by
  have hrange : ¬ (0 < s.cfg.pmin ∨ s.cfg.maxPayload ≤ 0) := by omega
  exact (if_neg hrange).trans (if_pos rfl)

/-- R124: an accepted length of at least 1. -/
theorem frmLength_pos {b : Byte} (hmin : s.cfg.pmin ≤ b.toNat) (hmax : b.toNat < s.cfg.maxPayload)
    (hb : b ≠ 0) : frmLength b s = .next (s.withFrm { s.frm with
      flen := b, chkacc := chkUpd s.cfg s.frm.chkacc b, pidx := 0, fstate := .payload }) := by
  have hrange : ¬ (b.toNat < s.cfg.pmin ∨ s.cfg.maxPayload ≤ b.toNat) := by omega
  exact (if_neg hrange).trans (if_neg hb)

/-- R126: the checksum byte that matches. -/
theorem frmChecksum_match {b : Byte} (hb : b = chkFin s.cfg s.frm.chkacc)
    (hlen : s.frm.flen.toNat ≤ s.cfg.maxPayload) : frmChecksum b s =
      .next (((s.emit (.dispatch s.frm.fcmd s.frm.flen (s.mem.pbuf.take s.frm.flen.toNat))).withFrm
        { s.frm with fstate := .magic, midx := 0, chkacc := s.cfg.chkInit }).forgetPayload) :=
  (if_pos hb).trans (if_pos hlen)

/-! ### Bytes fed one by one (R94, R120) -/

/-- s with the schedule ms, having driven the outputs os. -/
def State.scheduled (s : State) (ms : List Move) (os : List Output) : State :=
  (s.withMoves ms).withOut os

/-- The bytes bs, fed as the next requests, take the block from u to v, whatever is scheduled after them
and whatever outputs u has driven. -/
def Feeds (bs : List Byte) (u v : State) : Prop :=
  ∀ rest os, ∃ os', runSteps bs.length (u.scheduled (byteRequests bs ++ rest) os) =
    .next (v.scheduled rest os')

theorem Feeds.append {as bs : List Byte} {u v x : State} (h : Feeds as u v) (h' : Feeds bs v x) :
    Feeds (as ++ bs) u x := by
  intro rest os
  obtain ⟨os₁, h₁⟩ := h (byteRequests bs ++ rest) os
  obtain ⟨os₂, h₂⟩ := h' rest os₁
  have hsplit : byteRequests (as ++ bs) ++ rest = byteRequests as ++ (byteRequests bs ++ rest) := by
    simp [byteRequests]
  exact ⟨os₂, by rw [List.length_append, hsplit, runSteps_add h₁, h₂]⟩

/-- A block whose schedule begins with the bytes takes their steps. -/
theorem Feeds.run {bs : List Byte} {u v : State} {rest : List Move} (h : Feeds bs u v)
    (hmoves : u.moves = byteRequests bs ++ rest) :
    ∃ os, runSteps bs.length u = .next (v.scheduled rest os) := by
  have hself : u.scheduled (byteRequests bs ++ rest) u.out = u := by rw [← hmoves]; rfl
  simpa only [hself] using h rest u.out

theorem Feeds.cons {b : Byte} {bs : List Byte} {u v x : State} (h : Feeds [b] u v)
    (h' : Feeds bs v x) : Feeds (b :: bs) u x :=
  h.append h'

/-- A request of one byte at a ready, idle block. -/
theorem step_frmByte {b : Byte} {rest : List Move} (hready : s.Ready) (hidle : s.op = .idle)
    (hmoves : s.moves = .request (encode (.frmByte b)) :: rest) :
    step s = execFrmByte b (s.beginMove rest) :=
  step_request_instr hready hidle hmoves (decode_encode _)

/-- A byte whose transition looks at neither the schedule nor the outputs. -/
theorem feeds_byte {b : Byte} {u v : State} (hready : u.Ready) (hidle : u.op = .idle)
    (h : ∀ rest, execFrmByte b (u.beginMove rest) = .next (v.beginMove rest)) : Feeds [b] u v := by
  intro rest os
  have hstep : step (u.scheduled (byteRequests [b] ++ rest) os) = .next (v.beginMove rest) :=
    (step_frmByte (s := u.scheduled (byteRequests [b] ++ rest) os) hready hidle rfl).trans (h rest)
  exact ⟨[], runSteps_succ hstep⟩

/-! ### The parts of a frame -/

section
variable (hready : s.Ready) (hidle : s.op = .idle)
include hready hidle

/-- R122: byte i of MAGIC, before the last. -/
theorem feeds_magicByte {i : BitVec 2} (hf : s.frm.fstate = .magic) (hm : s.frm.midx = i)
    (hi : i ≠ 3) : Feeds [magicByte s.cfg i] s (s.withFrm { s.frm with midx := i + 1 }) := by
  subst hm
  exact feeds_byte hready hidle fun rest =>
    (execFrmByte_magic (s := s.beginMove rest) _ hf).trans (frmMagic_match rfl hi)

/-- R122: the last byte of MAGIC. -/
theorem feeds_magicLast (hf : s.frm.fstate = .magic) (hm : s.frm.midx = 3) :
    Feeds [s.cfg.magic3] s (s.withFrm { s.frm with midx := 0, fstate := .command }) :=
  feeds_byte hready hidle fun rest =>
    (execFrmByte_magic (s := s.beginMove rest) _ hf).trans
      (frmMagic_last (congrArg (magicByte s.cfg) hm).symm hm)

/-- R122: MAGIC, from its first byte. -/
theorem feeds_magic (hf : s.frm.fstate = .magic) (hm : s.frm.midx = 0) :
    Feeds [s.cfg.magic0, s.cfg.magic1, s.cfg.magic2, s.cfg.magic3] s
      (s.withFrm { s.frm with midx := 0, fstate := .command }) := by
  have h0 := feeds_magicByte hready hidle hf hm (by decide)
  have h1 := feeds_magicByte (s := s.withFrm { s.frm with midx := 1 }) (i := 1) hready hidle hf rfl
    (by decide)
  have h2 := feeds_magicByte (s := s.withFrm { s.frm with midx := 2 }) (i := 2) hready hidle hf rfl
    (by decide)
  have h3 := feeds_magicLast (s := s.withFrm { s.frm with midx := 3 }) hready hidle hf rfl
  exact h0.cons (h1.cons (h2.cons h3))

/-- R123: the command byte. -/
theorem feeds_command (b : Byte) (hf : s.frm.fstate = .command) :
    Feeds [b] s (s.withFrm { s.frm with
      fcmd := b, chkacc := chkUpd s.cfg s.frm.chkacc b, fstate := .length }) :=
  feeds_byte hready hidle fun rest => execFrmByte_command (s := s.beginMove rest) b hf

/-- R125: a byte of the payload. -/
theorem feeds_payloadByte (b : Byte) (hf : s.frm.fstate = .payload)
    (hidx : s.frm.pidx.toNat < s.cfg.maxPayload) :
    Feeds [b] s ((s.withMem (s.mem.storePayload s.frm.pidx.toNat b)).withFrm { s.frm with
      chkacc := chkUpd s.cfg s.frm.chkacc b
      pidx := s.frm.pidx + 1
      fstate := if s.frm.pidx + 1 = s.frm.flen then .checksum else .payload }) :=
  feeds_byte hready hidle fun rest =>
    (execFrmByte_payload (s := s.beginMove rest) b hf).trans (if_pos hidx)

end

/-- s waiting for the checksum byte, after the bytes bs on top of those its CHKACC covers. -/
def State.atChecksum (s : State) (pbuf bs : List Byte) (pidx : Byte) : State :=
  (s.withMem { s.mem with pbuf := pbuf }).withFrm { s.frm with
    chkacc := bs.foldl (chkUpd s.cfg) s.frm.chkacc, pidx := pidx, fstate := .checksum }

/-- After a store at i, the first i + 1 bytes of PBUF are the first i and the byte stored. -/
theorem Memory.take_storePayload (m : Memory) {i : Nat} (b : Byte) (h : i < m.pbuf.length) :
    (m.storePayload i b).pbuf.take (i + 1) = m.pbuf.take i ++ [b] := by
  simp [Memory.storePayload, List.take_add_one, List.take_set_of_le, h]

/-- R125: all payload bytes from PIDX up to FLEN. They follow, in PBUF, those received before. -/
theorem feeds_payload {bs : List Byte} (hready : s.Ready) (hidle : s.op = .idle)
    (hf : s.frm.fstate = .payload) (hbuf : s.mem.pbuf.length = s.cfg.maxPayload) (hne : bs ≠ [])
    (hlen : s.frm.pidx.toNat + bs.length = s.frm.flen.toNat)
    (hmax : s.frm.flen.toNat ≤ s.cfg.maxPayload) :
    ∃ pbuf, pbuf.take s.frm.flen.toNat = s.mem.pbuf.take s.frm.pidx.toNat ++ bs ∧
      Feeds bs s (s.atChecksum pbuf bs s.frm.flen) := by
  induction bs generalizing s with
  | nil => exact absurd rfl hne
  | cons b bs ih =>
    have hflen : s.frm.flen.toNat < 256 := s.frm.flen.isLt
    simp only [List.length_cons] at hlen
    have hidx : s.frm.pidx.toNat < s.cfg.maxPayload := by omega
    have hnext : (s.frm.pidx + 1).toNat = s.frm.pidx.toNat + 1 := by
      rw [BitVec.toNat_add]; exact Nat.mod_eq_of_lt (by simp; omega)
    have htake := s.mem.take_storePayload b (hbuf.symm ▸ hidx)
    have hbyte := feeds_payloadByte hready hidle b hf hidx
    by_cases hbs : bs = []
    · subst hbs
      have hend : s.frm.pidx + 1 = s.frm.flen := BitVec.eq_of_toNat_eq (by rw [hnext]; exact hlen)
      rw [if_pos hend, hend] at hbyte
      exact ⟨_, by rw [← hlen]; exact htake, hbyte⟩
    · have hpos : 0 < bs.length := List.length_pos_iff.2 hbs
      have hmore : s.frm.pidx + 1 ≠ s.frm.flen := fun h => by rw [← h, hnext] at hlen; omega
      rw [if_neg hmore] at hbyte
      obtain ⟨pbuf, hpbuf, hfeeds⟩ := ih (s := (s.withMem
        (s.mem.storePayload s.frm.pidx.toNat b)).withFrm { s.frm with
          chkacc := chkUpd s.cfg s.frm.chkacc b, pidx := s.frm.pidx + 1, fstate := .payload })
        hready hidle rfl (by simp [Memory.storePayload, hbuf]) hbs
        (by simp only [State.withFrm_frm, hnext]; omega) hmax
      simp only [State.withFrm_frm, State.withFrm_mem, State.withMem_mem, hnext, htake,
        List.append_assoc, List.singleton_append] at hpbuf
      exact ⟨pbuf, hpbuf, hbyte.cons hfeeds⟩

/-- R124, R125: an accepted length byte and the payload it announces. -/
theorem feeds_lengthAndPayload {len : Byte} {payload : List Byte} (hready : s.Ready)
    (hidle : s.op = .idle) (hf : s.frm.fstate = .length)
    (hbuf : s.mem.pbuf.length = s.cfg.maxPayload) (hlen : len.toNat = payload.length)
    (hmin : s.cfg.pmin ≤ payload.length) (hmax : payload.length < s.cfg.maxPayload) :
    ∃ pbuf pidx, pbuf.take len.toNat = payload ∧
      Feeds (len :: payload) s
        ((s.withFrm { s.frm with flen := len }).atChecksum pbuf (len :: payload) pidx) := by
  by_cases h0 : len = 0
  · subst h0
    obtain rfl : payload = [] := List.eq_nil_of_length_eq_zero hlen.symm
    refine ⟨s.mem.pbuf, s.frm.pidx, rfl, feeds_byte hready hidle fun rest => ?_⟩
    exact (execFrmByte_length (s := s.beginMove rest) 0 hf).trans
      (frmLength_zero (Nat.le_zero.1 hmin) hmax)
  · have hlength : Feeds [len] s (s.withFrm { s.frm with
        flen := len, chkacc := chkUpd s.cfg s.frm.chkacc len, pidx := 0, fstate := .payload }) :=
      feeds_byte hready hidle fun rest => (execFrmByte_length (s := s.beginMove rest) len hf).trans
        (frmLength_pos (hlen ▸ hmin) (hlen ▸ hmax) h0)
    have hne : payload ≠ [] := fun h => h0 (BitVec.eq_of_toNat_eq (by rw [hlen, h]; rfl))
    obtain ⟨pbuf, hpbuf, hfeeds⟩ := feeds_payload (s := s.withFrm { s.frm with
        flen := len, chkacc := chkUpd s.cfg s.frm.chkacc len, pidx := 0, fstate := .payload })
      hready hidle rfl hbuf hne (by simp [hlen]) (hlen ▸ hmax.le)
    exact ⟨pbuf, len, hpbuf, hlength.cons hfeeds⟩

/-- R122 to R125: a frame up to its checksum byte. -/
theorem feeds_frame (cmd : Byte) {len : Byte} {payload : List Byte} (hready : s.Ready)
    (hidle : s.op = .idle) (hf : s.frm.fstate = .magic) (hm : s.frm.midx = 0)
    (hbuf : s.mem.pbuf.length = s.cfg.maxPayload) (hlen : len.toNat = payload.length)
    (hmin : s.cfg.pmin ≤ payload.length) (hmax : payload.length < s.cfg.maxPayload) :
    ∃ pbuf pidx, pbuf.take len.toNat = payload ∧
      Feeds ([s.cfg.magic0, s.cfg.magic1, s.cfg.magic2, s.cfg.magic3] ++ cmd :: len :: payload) s
        ((s.withFrm { s.frm with midx := 0, fcmd := cmd, flen := len }).atChecksum pbuf
          (cmd :: len :: payload) pidx) := by
  have hmagic := feeds_magic hready hidle hf hm
  have hcommand := feeds_command (s := s.withFrm { s.frm with midx := 0, fstate := .command })
    hready hidle cmd rfl
  obtain ⟨pbuf, pidx, hpbuf, hpayload⟩ := feeds_lengthAndPayload (s := s.withFrm { s.frm with
      midx := 0, fcmd := cmd, chkacc := chkUpd s.cfg s.frm.chkacc cmd, fstate := .length })
    hready hidle rfl hbuf hlen hmin hmax
  exact ⟨pbuf, pidx, hpbuf, hmagic.append (hcommand.cons hpayload)⟩

/-- R126, R127: the checksum byte that matches dispatches the frame. -/
theorem step_dispatch {b : Byte} {rest : List Move} {os : List Output} (hready : s.Ready)
    (hidle : s.op = .idle) (hf : s.frm.fstate = .checksum)
    (hlen : s.frm.flen.toNat ≤ s.cfg.maxPayload) (hb : b = chkFin s.cfg s.frm.chkacc) :
    step (s.scheduled (byteRequests [b] ++ rest) os) =
      .next ((((s.beginMove rest).emit (.dispatch s.frm.fcmd s.frm.flen
        (s.mem.pbuf.take s.frm.flen.toNat))).withFrm
          { s.frm with fstate := .magic, midx := 0, chkacc := s.cfg.chkInit }).forgetPayload) :=
  (step_frmByte (s := s.scheduled (byteRequests [b] ++ rest) os) hready hidle rfl).trans
    ((execFrmByte_checksum (s := s.beginMove rest) b hf).trans (frmChecksum_match hb hlen))

end

/-- Settles O34: the frame up to its checksum byte leaves the block at CHECKSUM with the payload in PBUF
and a CHKACC that covers it; the checksum byte then dispatches it. -/
theorem validFrameIsDispatched : Obligations.ValidFrameIsDispatched := by
  intro s cmd payload rest hready hinv hidle hf hm hmin hmax hmoves
  obtain ⟨-, hbuf, -, -, -, hmagic, -⟩ := hinv
  obtain ⟨hacc, -⟩ := hmagic hf
  obtain ⟨⟨-, h256, -⟩, -⟩ := (config_wf_iff s.cfg).1 hready.1
  have hlen : (BitVec.ofNat 8 payload.length).toNat = payload.length :=
    Nat.mod_eq_of_lt (by omega)
  obtain ⟨pbuf, pidx, hpbuf, hfeeds⟩ := feeds_frame cmd hready hidle hf hm hbuf hlen hmin hmax
  have hcover : (coveredBytes cmd payload).foldl (chkUpd s.cfg) s.frm.chkacc =
      chkOver s.cfg (coveredBytes cmd payload) := by rw [hacc]; rfl
  obtain ⟨os, hrun⟩ := hfeeds.run (rest := byteRequests
    [chkFin s.cfg (chkOver s.cfg (coveredBytes cmd payload))] ++ rest) (by
      rw [hmoves]; simp [wireFrame, coveredBytes, byteRequests])
  have hcount : 7 + payload.length = ([s.cfg.magic0, s.cfg.magic1, s.cfg.magic2, s.cfg.magic3] ++
      cmd :: BitVec.ofNat 8 payload.length :: payload).length + 1 := by simp; omega
  have hend := (runSteps_add (k := 1) hrun).trans (runSteps_succ (step_dispatch hready hidle rfl
    (hlen.trans_le hmax.le) (congrArg (chkFin s.cfg) hcover.symm)))
  have hsent := congrArg
    (fun bytes => [Output.dispatch cmd (BitVec.ofNat 8 payload.length) bytes]) hpbuf
  exact ⟨_, by rw [hcount, hend, runSteps_zero], hsent, rfl, rfl, rfl⟩

end Sys2Proof.Machine
end

section
/-! The integer square root (spec/40_integer_math.md R100 to R102): the bit trials find the floor, which
is Mathlib's `Nat.sqrt`, so the properties R102 asks for are its library facts. -/

namespace Sys2Proof.Machine

open Sys2Proof

/-- The trials close in on the root: where it lies at least at r and below r + 2^n, the stages for the
bits below n end at it. -/
theorem isqrtStages_eq_sqrt {q n r : Nat} (hlow : r * r ≤ q)
    (hhigh : q < (r + 2 ^ n) * (r + 2 ^ n)) : isqrtStages q n r = Nat.sqrt q := by
  induction n generalizing r with
  | zero => exact Nat.eq_sqrt.2 ⟨hlow, hhigh⟩
  | succ n ih =>
    rw [isqrtStages, isqrtStage]
    split
    case isTrue haccept =>
      refine ih haccept ?_
      rwa [add_assoc, ← two_mul, ← pow_succ']
    case isFalse hreject => exact ih hlow (not_le.1 hreject)

/-- R100 on its whole domain: sixteen stages are enough for a 32-bit q. -/
theorem isqrt_eq_sqrt {q : Nat} (hq : q < 2 ^ 32) : isqrt q = Nat.sqrt q :=
  isqrtStages_eq_sqrt (Nat.zero_le q) (by simpa using hq)

theorem encode_isqrt_toNat (q : Word) :
    (encode (.isqrt q)).toNat = 0x9000000000000000 + q.toNat := by
  rw [encode, requestWord_toNat _ _ _ _ (Instr.opcode_lt _)]
  simp only [Instr.opcode, Instr.operandA, Instr.operandB, Instr.operandC, BitVec.ofNat_eq_ofNat,
    BitVec.toNat_ofNat]
  omega

/-- R101: the operation drives the floor, for every operand. -/
theorem execIsqrt_eq (q : Word) (s : State) :
    execIsqrt q s = .next (s.driveRes (zext32 (Nat.sqrt q.toNat))) := by
  rw [execIsqrt, isqrt_eq_sqrt q.isLt]

/-- Settles O57: `isqrt` is `Nat.sqrt` on 32-bit numbers, and n * n + 2 * n is a 32-bit number for
every 16-bit n. -/
theorem squareRootIsTheFloor : Obligations.SquareRootIsTheFloor := by
  refine ⟨fun q hq => ?_, fun n hn => ?_⟩
  · rw [isqrt_eq_sqrt hq]
    exact ⟨Nat.sqrt_le q, Nat.lt_succ_sqrt q, Nat.sqrt_lt.2 hq⟩
  · have hlast : n * n + 2 * n < 2 ^ 32 := by nlinarith
    rw [isqrt_eq_sqrt hlast, isqrt_eq_sqrt (by omega)]
    exact ⟨Nat.sqrt_eq n, Nat.sqrt_add_eq n (two_mul n).le⟩

/-- Settles O58, by the word's fields and the effect with the floor. -/
theorem isqrtDrivesTheRoot : Obligations.IsqrtDrivesTheRoot :=
  fun q s => ⟨encode_isqrt_toNat q, execIsqrt_eq q s⟩

end Sys2Proof.Machine
end

section
/-! The formatter (spec/40_integer_math.md R103 to R106): its string as one block of characters per digit
position, the operation FMT, and the string without its spaces and point as the low decimal digits of
the value. -/

namespace Sys2Proof.Machine

open Sys2Proof

section
variable {v p d j n : Nat}

/-! ### The string (R103) -/

theorem fmtString_succ (v p j : Nat) : fmtString v p (j + 1) = fmtChar v p j ::
    (if j = p ∧ 1 ≤ p then asciiPoint :: fmtString v p j else fmtString v p j) := rfl

/-- Position j of the string, from D - 1 down to 0: its character, and the point after the ones digit. -/
theorem fmtString_eq_flatMap (v p d : Nat) :
    fmtString v p d = (List.range d).reverse.flatMap fun j =>
      fmtChar v p j :: (if j = p ∧ 1 ≤ p then [asciiPoint] else []) := by
  induction d with
  | zero => rfl
  | succ j ih =>
    rw [fmtString_succ, ih, List.range_succ, List.reverse_append, List.reverse_singleton,
      List.singleton_append, List.flatMap_cons]
    split <;> rfl

/-! ### FMT (R104) -/

theorem encode_fmt_toNat (v : Word) (p d : Byte) : (encode (.fmt v p d)).toNat =
    0x9800000000000000 + d.toNat * 2 ^ 40 + p.toNat * 2 ^ 32 + v.toNat := by
  rw [encode, requestWord_toNat _ _ _ _ (Instr.opcode_lt _)]
  simp only [Instr.opcode, Instr.operandA, Instr.operandB, Instr.operandC]
  omega

theorem fmtFits_iff {v : Word} {p d : Byte} : fmtFits v p d = true ↔
    1 ≤ d.toNat ∧ d.toNat ≤ 6 ∧ p.toNat ≤ 6 ∧ p.toNat < d.toNat ∧ v.toNat < 10 ^ d.toNat :=
  decide_eq_true_iff

theorem execFmt_of_fits {v : Word} {p d : Byte} (s : State) (h : fmtFits v p d = true) :
    execFmt v p d s = .next (s.emit (.str (fmtString v.toNat p.toNat d.toNat))) := if_pos h

theorem execFmt_of_not_fits {v : Word} {p d : Byte} (s : State) (h : ¬ fmtFits v p d = true) :
    execFmt v p d s = raiseFault .fmtRange (originOf (.fmt v p d)) s := if_neg h

/-! ### Characters (R105) -/

theorem decimalDigit_lt (v j : Nat) : decimalDigit v j < 10 := Nat.mod_lt _ (by omega)

theorem asciiDigit_toNat (h : n < 10) : (asciiDigit n).toNat = 0x30 + n :=
  Nat.mod_eq_of_lt (by omega)

/-- The codes of the digits start at 0x30; the space and the point have smaller ones. -/
theorem asciiDigit_ne {ch : Byte} (hch : ch.toNat < 0x30) (h : n < 10) : asciiDigit n ≠ ch := by
  rintro rfl
  rw [asciiDigit_toNat h] at hch
  omega

/-- A string holds spaces, the point and digits only. -/
theorem mem_fmtString {ch : Byte} (h : ch ∈ fmtString v p d) :
    ch = asciiSpace ∨ ch = asciiPoint ∨ ∃ n < 10, ch = asciiDigit n := by
  rw [fmtString_eq_flatMap, List.mem_flatMap] at h
  obtain ⟨j, -, h⟩ := h
  rcases List.mem_cons.1 h with rfl | hpoint
  · unfold fmtChar
    split
    · exact .inl rfl
    · exact .inr (.inr ⟨_, decimalDigit_lt v j, rfl⟩)
  · split at hpoint
    · exact .inr (.inl (List.mem_singleton.1 hpoint))
    · cases hpoint

/-! ### The string without its spaces and point (R106) -/

/-- The string with its spaces and point deleted. -/
def stripped (str : List Byte) : List Byte := str.filter fun ch => ch ≠ asciiSpace ∧ ch ≠ asciiPoint

/-- Append the digit ch to the decimal number acc. -/
def readDigit (acc : Nat) (ch : Byte) : Nat := 10 * acc + (ch.toNat - 0x30)

theorem decimalValue_eq (str : List Byte) :
    decimalValue str = (stripped str).foldl readDigit 0 := rfl

theorem stripped_space (str : List Byte) : stripped (asciiSpace :: str) = stripped str :=
  List.filter_cons_of_neg (by simp)

theorem stripped_point (str : List Byte) : stripped (asciiPoint :: str) = stripped str :=
  List.filter_cons_of_neg (by simp)

theorem stripped_digit (h : n < 10) (str : List Byte) :
    stripped (asciiDigit n :: str) = asciiDigit n :: stripped str :=
  List.filter_cons_of_pos (decide_eq_true
    ⟨asciiDigit_ne (by decide) h, asciiDigit_ne (by decide) h⟩)

/-- The characters of the n lowest decimal digits of v, most significant first. -/
def digitChars (v : Nat) : Nat → List Byte
  | 0 => []
  | n + 1 => asciiDigit (decimalDigit v n) :: digitChars v n

theorem digitChars_length (v n : Nat) : (digitChars v n).length = n := by
  induction n with
  | zero => rfl
  | succ n ih => rw [digitChars, List.length_cons, ih]

/-- Read after the number acc, the n lowest digits of v append v mod 10^n to it. -/
theorem foldl_digitChars (v n acc : Nat) :
    (digitChars v n).foldl readDigit acc = acc * 10 ^ n + v % 10 ^ n := by
  induction n generalizing acc with
  | zero => simp [digitChars, Nat.mod_one]
  | succ n ih =>
    rw [digitChars, List.foldl_cons, ih, readDigit, asciiDigit_toNat (decimalDigit_lt v n),
      Nat.add_sub_cancel_left, decimalDigit, Nat.mod_pow_succ]
    ring

/-- The number of digit positions that hold a digit: those of v, at least up to the ones digit. -/
def shownDigits (v p : Nat) : Nat := max (Nat.digits 10 v).length (p + 1)

theorem shownDigits_le_iff : shownDigits v p ≤ j ↔ p < j ∧ v < 10 ^ j := by
  rw [shownDigits, max_le_iff, Nat.digits_length_le_iff (by omega), Nat.succ_le_iff, and_comm]

theorem fmtChar_space (h : shownDigits v p ≤ j) : fmtChar v p j = asciiSpace :=
  if_pos (shownDigits_le_iff.1 h)

theorem fmtChar_digit (h : j < shownDigits v p) : fmtChar v p j = asciiDigit (decimalDigit v j) :=
  if_neg (mt shownDigits_le_iff.2 (not_le.2 h))

/-- Stripped, the positions below j are the digit positions among them. -/
theorem stripped_fmtString (v p j : Nat) :
    stripped (fmtString v p j) = digitChars v (min j (shownDigits v p)) := by
  induction j with
  | zero => rw [Nat.zero_min]; rfl
  | succ j ih =>
    have hrest : stripped (if j = p ∧ 1 ≤ p then asciiPoint :: fmtString v p j
        else fmtString v p j) = stripped (fmtString v p j) := by
      split
      · exact stripped_point _
      · rfl
    rw [fmtString_succ]
    rcases le_or_gt (shownDigits v p) j with hspace | hdigit
    · rw [fmtChar_space hspace, stripped_space, hrest, ih, min_eq_right hspace,
        min_eq_right (Nat.le_succ_of_le hspace)]
    · rw [fmtChar_digit hdigit, stripped_digit (decimalDigit_lt v j), hrest, ih,
        min_eq_left hdigit.le, min_eq_left hdigit, digitChars]

/-- Where the value fits the positions, the stripped string is exactly the digits to show. -/
theorem stripped_fmtString_of_fits (hp : p < d) (hv : v < 10 ^ d) :
    stripped (fmtString v p d) = digitChars v (shownDigits v p) := by
  rw [stripped_fmtString, min_eq_right (shownDigits_le_iff.2 ⟨hp, hv⟩)]

theorem decimalValue_fmtString (hp : p < d) (hv : v < 10 ^ d) :
    decimalValue (fmtString v p d) = v := by
  have hshown : v < 10 ^ shownDigits v p := (shownDigits_le_iff.1 le_rfl).2
  rw [decimalValue_eq, stripped_fmtString_of_fits hp hv, foldl_digitChars, zero_mul, zero_add,
    Nat.mod_eq_of_lt hshown]

end

/-- Settles O59, by the two outcomes of FMT and the string as one block per position. -/
theorem formatDrivesTheString : Obligations.FormatDrivesTheString := by
  refine fun v p d s => ⟨encode_fmt_toNat v p d, fun hd hd6 hp hv => ?_, fun hbad => ?_⟩
  · have hfits : fmtFits v p d = true := fmtFits_iff.2 ⟨hd, hd6, hp.le.trans hd6, hp, hv⟩
    refine (execFmt_of_fits s hfits).trans ?_
    rw [fmtString_eq_flatMap]
    rfl
  · have hunfit : ¬ fmtFits v p d = true := by rw [fmtFits_iff]; omega
    exact execFmt_of_not_fits s hunfit

/-- Settles O60: the stripped string is the low decimal digits of v, as many as are shown. -/
theorem formatRoundTrip : Obligations.FormatRoundTrip := by
  intro v p d _ _ hp hv
  refine ⟨decimalValue_fmtString hp hv, ?_, fun ch hch => ?_⟩
  · exact (congrArg List.length (stripped_fmtString_of_fits hp hv)).trans (digitChars_length v _)
  · rcases mem_fmtString hch with hspace | hpoint | ⟨n, hn, rfl⟩
    · exact .inl hspace
    · exact .inr (.inl hpoint)
    · rw [asciiDigit_toNat hn]
      omega

end Sys2Proof.Machine
end

section
/-! The framing unit at every step (spec/41_framing.md R120 to R130). A step is a RESET, a byte the port
passes to the unit, or a step that leaves the unit alone (`FramingStep`); the invariant of the unit, the
senders of the output events and the safety of dispatches are case analyses on it. -/

namespace Sys2Proof.Machine

open Sys2Proof

/-! ### The transitions that refuse a byte (R122, R124, R126) -/

section
variable {s : State}

/-- R122: a byte that does not match MAGIC[MIDX]. -/
theorem frmMagic_miss {b : Byte} (hb : b ≠ magicByte s.cfg s.frm.midx) :
    frmMagic b s = .next (s.withFrm { s.frm with
      midx := if s.cfg.magicRetest ∧ b = s.cfg.magic0 then 1 else 0
      chkacc := s.cfg.chkInit }) :=
  if_neg hb

/-- R124: a length that is not accepted. -/
theorem frmLength_bad {b : Byte} (hb : b.toNat < s.cfg.pmin ∨ s.cfg.maxPayload ≤ b.toNat) :
    frmLength b s = .next ((s.withFrm { s.frm with
      flen := b, chkacc := chkUpd s.cfg s.frm.chkacc b }).diagnoseAndRestart .badLength) :=
  if_pos hb

/-- R250, R253: DIAG, then RESTART, and the block halts with the cause. -/
theorem diagnoseAndRestart_eq (cause : RestartCause) : s.diagnoseAndRestart cause = { s with
    out := s.out ++ [.diag cause, .restart cause], status := ⟨true, cause⟩ } := by
  simp [State.diagnoseAndRestart, State.restart, State.emit, State.withOut, State.withStatus]

/-- R126: a checksum byte that does not match. -/
theorem frmChecksum_miss {b : Byte} (hb : b ≠ chkFin s.cfg s.frm.chkacc) :
    frmChecksum b s = .next (s.diagnoseAndRestart .badChecksum) :=
  if_neg hb

end

/-! ### The outputs and who sends them (R48, R127, R250, R253) -/

/-- The output events of the framing unit. -/
def Output.isFramingEvent : Output → Bool
  | .dispatch _ _ _ | .diag _ | .restart _ => true
  | .res _ | .str _ | .finishedEvent | .edgeFeedback => false

/-- The output is one that the move, where it passes no byte to the framing unit, may send: a result of
the main loop, FINISHED_EVENT of the tick handler, EDGE_FEEDBACK of the edge handler. -/
def Output.OutsideFraming (m : Option Move) : Output → Prop
  | .res _ | .str _ => True
  | .dispatch _ _ _ | .diag _ | .restart _ => False
  | .finishedEvent => m = some .tickIsr
  | .edgeFeedback => m = some .edgeIsr

/-- t has what the framing unit of s works on: its registers, PBUF, the block status and the
parameters. -/
structure SameFraming (s t : State) : Prop where
  cfg : t.cfg = s.cfg
  frm : t.frm = s.frm
  pbuf : t.mem.pbuf = s.mem.pbuf
  status : t.status = s.status

/-- What a step of a block without a fault is to the framing unit. -/
inductive FramingStep (s t : State) : Prop where
  | reset (rest : List Move) (hm : s.moves = .reset :: rest) (ht : t = takeReset (s.beginMove rest))
  | byte (b : Byte) (rest : List Move) (hm : s.moves = .request (encode (.frmByte b)) :: rest)
      (hb : s.acceptedByte = some b) (hrun : s.status.halted = false)
      (he : ExecEffect (.frmByte b) (s.beginMove rest) t)
  | other (hm : s.moves.head? ≠ some .reset) (hb : s.acceptedByte = none) (hsame : SameFraming s t)
      (hout : ∀ o ∈ t.out, o.OutsideFraming s.moves.head?)

section
variable {s t : State}

/-- The tick handler body sends nothing but FINISHED_EVENT (R164). -/
theorem tickBody_out (s : State) :
    (tickBody s).out = s.out ∨ (tickBody s).out = s.out ++ [.finishedEvent] := by
  rw [tickBody_eq]
  split
  · split
    · split
      · exact .inr rfl
      · exact .inl rfl
    · exact .inl rfl
  · exact .inl rfl

/-- A micro-step of TMR_READ_SYNC drives at most RES (R167). -/
theorem syncStep_out {l sh : ByteAcc} (h : syncStep l sh s = .next t) :
    t.out = s.out ∨ ∃ v, t.out = s.out ++ [.res v] := by
  obtain ⟨-, rfl⟩ | ⟨-, -, rfl⟩ | ⟨-, -, -, rfl⟩ | ⟨-, -, -, rfl⟩ := syncStep_next h
  · exact .inl rfl
  · exact .inl rfl
  · exact .inl rfl
  · exact .inr ⟨_, rfl⟩

/-- A later micro-step of RB_STATS drives at most RES (R206). -/
theorem statsStep_out {v : Traversal} (h : statsStep v s = .next t) :
    t.out = s.out ∨ ∃ v, t.out = s.out ++ [.res v] := by
  obtain ⟨-, rfl⟩ | ⟨-, _, -, rfl⟩ | ⟨-, -, rfl⟩ := statsStep_next h
  · exact .inl rfl
  · exact .inr ⟨_, rfl⟩
  · exact .inl rfl

/-- With no output driven before, one that a micro-step drives is RES. -/
theorem outsideFraming_of_res {m : Option Move} (hout : s.out = [])
    (h : t.out = s.out ∨ ∃ v, t.out = s.out ++ [.res v]) : ∀ o ∈ t.out, o.OutsideFraming m := by
  obtain h | ⟨v, h⟩ := h
  · simp [h, hout]
  · simp [h, hout, Output.OutsideFraming]

/-- FRM_BYTE sends no output but the events of the framing unit (R126, R250, R253). -/
theorem ExecEffect.frmByte_out {b : Byte} (h : ExecEffect (.frmByte b) s t) (hout : s.out = []) :
    ∀ o ∈ t.out, o.isFramingEvent = true := by
  cases h <;> simp [hout, Output.isFramingEvent]

/-- An operation other than FRM_BYTE leaves the framing unit alone and drives only RES and STR. -/
theorem ExecEffect.outsideFraming {i : Instr} (h : ExecEffect i s t) (hi : ∀ b, i ≠ .frmByte b)
    (hout : s.out = []) (m : Option Move) :
    SameFraming s t ∧ ∀ o ∈ t.out, o.OutsideFraming m := by
  cases h with
  | magicLast _ b | magicMatch _ b | magicMiss _ b | command _ b | lengthBad _ b | lengthZero _ b
  | lengthGood _ b | payload _ b | dispatch _ b | checksumBad _ b => exact absurd rfl (hi b)
  | tmrReadSync _ _ hsync =>
    refine ⟨?_, outsideFraming_of_res hout (syncStep_out hsync)⟩
    obtain ⟨_, _, -, rfl⟩ := syncStep_frame hsync
    exact ⟨rfl, rfl, rfl, rfl⟩
  | _ => exact ⟨⟨rfl, rfl, rfl, rfl⟩, by simp [hout, Output.OutsideFraming]⟩

/-- A turn that is no RESET and runs no FRM_BYTE leaves the framing unit alone and sends none of its
events. -/
theorem TurnEffect.outsideFraming {m : Move} (h : TurnEffect m s t) (hreset : m ≠ .reset)
    (hbyte : ∀ w b, m = .request w → s.op = .idle → decode w ≠ .instr (.frmByte b))
    (hout : s.out = []) : SameFraming s t ∧ ∀ o ∈ t.out, o.OutsideFraming (some m) := by
  cases h with
  | instr _ _ w i hidle hdecode hexec =>
    have hi : ∀ b, i ≠ .frmByte b := fun b hi => hbyte w b rfl hidle (hi ▸ hdecode)
    exact hexec.outsideFraming hi hout _
  | sync _ _ _ _ _ hsync =>
    refine ⟨?_, outsideFraming_of_res hout (syncStep_out hsync)⟩
    obtain ⟨_, _, -, rfl⟩ := syncStep_frame hsync
    exact ⟨rfl, rfl, rfl, rfl⟩
  | stats _ _ _ _ hstats =>
    refine ⟨?_, outsideFraming_of_res hout (statsStep_out hstats)⟩
    obtain ⟨_, _, _, _, _, rfl⟩ := statsStep_frame hstats
    exact ⟨rfl, rfl, rfl, rfl⟩
  | tickHandler =>
    constructor
    · obtain ⟨_, _, _, _, _, hbody, -⟩ := tickBody_frame (s.setIe false)
      rw [hbody]
      exact ⟨rfl, rfl, rfl, rfl⟩
    · obtain hsent | hsent := tickBody_out (s.setIe false)
      · simp [hsent, hout]
      · simp [hsent, hout, Output.OutsideFraming]
  | reset => exact absurd rfl hreset
  | _ => exact ⟨⟨rfl, rfl, rfl, rfl⟩, by simp [hout, Output.OutsideFraming]⟩

/-! ### The byte a step accepts (R80, R120) -/

theorem acceptedByte_of_request {w : Request} {rest : List Move} {b : Byte}
    (hm : s.moves = .request w :: rest) (hidle : s.op = .idle) (hrun : s.status.halted = false)
    (hd : decode w = .instr (.frmByte b)) : s.acceptedByte = some b := by
  unfold State.acceptedByte
  rw [hm, hidle, hrun]
  dsimp only
  rw [hd]

/-- An accepted byte is that of an FRM_BYTE request, next at the idle port of a running block. -/
theorem request_of_acceptedByte {b : Byte} (h : s.acceptedByte = some b) :
    ∃ rest, s.moves = .request (encode (.frmByte b)) :: rest ∧ s.op = .idle ∧
      s.status.halted = false := by
  unfold State.acceptedByte at h
  split at h
  case h_2 => cases h
  case h_1 w rest hm hidle hrun =>
    split at h
    case h_2 => cases h
    case h_1 _ hd =>
      cases h
      exact ⟨rest, encode_of_decode hd ▸ hm, hidle, hrun⟩

/-- Every step with a next state is one of the three kinds. -/
theorem step_framing (h : step s = .next t) : FramingStep s t := by
  obtain ⟨hwf, hfault, hcase⟩ := step_effect h
  cases hb : s.acceptedByte with
  | some b =>
    obtain ⟨rest, hm, hidle, hrun⟩ := request_of_acceptedByte hb
    rw [step_frmByte ⟨hwf, hfault, hrun⟩ hidle hm] at h
    exact .byte b rest hm hb hrun (execFrmByte_effect h)
  | none =>
    obtain ⟨hm, rfl⟩ | ⟨m, rest, hm, ⟨hne, -, rfl⟩ | ⟨hrun, hturn⟩⟩ := hcase
    · exact .other (by simp [hm]) hb ⟨rfl, rfl, rfl, rfl⟩ (by simp)
    · exact .other (by simpa [hm] using hne) hb ⟨rfl, rfl, rfl, rfl⟩ (by simp)
    · by_cases hreset : m = .reset
      · subst hreset
        cases hturn with
        | nothing => contradiction
        | reset => exact .reset rest hm rfl
      · have hbyte : ∀ w b, m = .request w → s.op = .idle → decode w ≠ .instr (.frmByte b) := by
          rintro w b rfl hidle hd
          have hsome := acceptedByte_of_request hm hidle (hrun.resolve_left hreset) hd
          rw [hb] at hsome
          cases hsome
        obtain ⟨⟨hcfg, hfrm, hpbuf, hstatus⟩, hout⟩ := hturn.outsideFraming hreset hbyte rfl
        exact .other (by simpa [hm] using hreset) hb ⟨hcfg, hfrm, hpbuf, hstatus⟩ (by simpa [hm])

/-! ### The framing invariant by states (R22 to R28, R121) -/

/-- The part of the framing invariant that holds in every state of the unit. -/
abbrev State.FramingBase (s : State) : Prop :=
  s.cfg.wf = true ∧ s.mem.pbuf.length = s.cfg.maxPayload ∧ s.frm.chkacc < 2 ^ s.cfg.cw ∧
    (s.status.halted = true ↔ s.status.cause ≠ .none)

/-- The part of the framing invariant for a state f of the unit. -/
def State.FramingStage (s : State) : FState → Prop
  | .magic => s.frm.chkacc = s.cfg.chkInit ∧ s.status.halted = false
  | .command => s.frm.midx = 0 ∧ s.frm.chkacc = s.cfg.chkInit ∧ s.status.halted = false
  | .length => s.frm.midx = 0 ∧
      (s.status.halted = false → s.frm.chkacc = chkOver s.cfg [s.frm.fcmd])
  | .payload => s.frm.midx = 0 ∧ s.status.halted = false ∧
      s.frm.pidx.toNat < s.frm.flen.toNat ∧ s.cfg.pmin ≤ s.frm.flen.toNat ∧
      s.frm.flen.toNat < s.cfg.maxPayload ∧ s.frm.chkacc =
        chkOver s.cfg (s.frm.fcmd :: s.frm.flen :: s.mem.pbuf.take s.frm.pidx.toNat)
  | .checksum => s.frm.midx = 0 ∧ s.cfg.pmin ≤ s.frm.flen.toNat ∧
      s.frm.flen.toNat < s.cfg.maxPayload ∧ s.frm.chkacc =
        chkOver s.cfg (s.frm.fcmd :: s.frm.flen :: s.mem.pbuf.take s.frm.flen.toNat)

theorem framingInv_iff : s.FramingInv ↔ s.FramingBase ∧ s.FramingStage s.frm.fstate := by
  cases hf : s.frm.fstate <;>
    simp [State.FramingInv, State.FramingBase, State.FramingStage, hf, and_assoc]

/-! ### The checksum accumulator (R121) -/

theorem chkUpd_lt (c : Config) (a : Nat) (b : Byte) : chkUpd c a b < 2 ^ c.cw := by
  unfold chkUpd
  split <;> exact Nat.mod_lt _ (Nat.two_pow_pos _)

theorem chkUpd_chkOver (c : Config) (bs : List Byte) (b : Byte) :
    chkUpd c (chkOver c bs) b = chkOver c (bs ++ [b]) := by
  simp [chkOver]

/-- R125: while PIDX is below FLEN its increment does not wrap. -/
theorem pidx_succ_toNat {pidx flen : Byte} (h : pidx.toNat < flen.toNat) :
    (pidx + 1).toNat = pidx.toNat + 1 := by
  have := flen.isLt
  rw [BitVec.toNat_add]
  exact Nat.mod_eq_of_lt (by simp; omega)

/-! ### The framing invariant at every step -/

theorem SameFraming.keeps_framingInv (h : SameFraming s t) (hinv : s.FramingInv) :
    t.FramingInv := by
  obtain ⟨hcfg, hfrm, hpbuf, hstatus⟩ := h
  simpa only [State.FramingInv, hcfg, hfrm, hpbuf, hstatus] using hinv

/-- R280: RESET puts the unit in MAGIC with CHK_INIT. -/
theorem takeReset_framingInv (hwf : s.cfg.wf = true) : (takeReset s).FramingInv := by
  obtain ⟨-, hinit, -⟩ := (config_wf_iff _).1 hwf
  exact framingInv_iff.2 ⟨⟨hwf, freeBytes_length _ _, hinit, by simp⟩, rfl, rfl⟩

/-- R125: a payload byte keeps the invariant, whether or not it is the last of the frame. -/
theorem storePayload_keeps_framingInv {b : Byte} (hf : s.frm.fstate = .payload)
    (hinv : s.FramingInv) :
    ((s.withMem (s.mem.storePayload s.frm.pidx.toNat b)).withFrm { s.frm with
      chkacc := chkUpd s.cfg s.frm.chkacc b
      pidx := s.frm.pidx + 1
      fstate := if s.frm.pidx + 1 = s.frm.flen then .checksum else .payload }).FramingInv := by
  obtain ⟨⟨hwf, hbuf, -, hcause⟩, hstage⟩ := framingInv_iff.1 hinv
  rw [hf] at hstage
  obtain ⟨hmidx, hrun, hidx, hmin, hmax, hacc⟩ := hstage
  have hnext := pidx_succ_toNat hidx
  have htake := s.mem.take_storePayload b (hbuf.symm ▸ hidx.trans hmax)
  have hacc' : chkUpd s.cfg s.frm.chkacc b = chkOver s.cfg (s.frm.fcmd :: s.frm.flen ::
      (s.mem.storePayload s.frm.pidx.toNat b).pbuf.take (s.frm.pidx + 1).toNat) := by
    rw [hacc, chkUpd_chkOver, hnext, htake]; rfl
  refine framingInv_iff.2 ⟨⟨hwf, ?_, chkUpd_lt _ _ _, hcause⟩, ?_⟩
  · exact List.length_set.trans hbuf
  · by_cases hend : s.frm.pidx + 1 = s.frm.flen
    · rw [hend] at hacc'
      simp only [State.withFrm_frm, if_pos hend]
      exact ⟨hmidx, hmin, hmax, hacc'⟩
    · have hne : (s.frm.pidx + 1).toNat ≠ s.frm.flen.toNat := fun h =>
        hend (BitVec.eq_of_toNat_eq h)
      simp only [State.withFrm_frm, if_neg hend]
      exact ⟨hmidx, hrun, by simp only [State.withFrm_frm]; omega, hmin, hmax, hacc'⟩

/-- R122 to R126: every byte keeps the invariant. -/
theorem ExecEffect.frmByte_keeps_framingInv {b : Byte} (h : ExecEffect (.frmByte b) s t)
    (hrun : s.status.halted = false) (hinv : s.FramingInv) : t.FramingInv := by
  obtain ⟨⟨hwf, hbuf, hlt, hcause⟩, hstage⟩ := framingInv_iff.1 hinv
  obtain ⟨-, hinit, -⟩ := (config_wf_iff _).1 hwf
  cases h with
  | faults => exact hinv
  | magicLast _ _ hf =>
    rw [hf] at hstage
    obtain ⟨hacc, -⟩ := hstage
    exact framingInv_iff.2 ⟨⟨hwf, hbuf, hlt, hcause⟩, rfl, hacc, hrun⟩
  | magicMatch _ _ hf =>
    rw [hf] at hstage
    refine framingInv_iff.2 ⟨⟨hwf, hbuf, hlt, hcause⟩, ?_⟩
    rw [State.withFrm_frm, hf]
    exact hstage
  | magicMiss _ _ hf =>
    refine framingInv_iff.2 ⟨⟨hwf, hbuf, hinit, hcause⟩, ?_⟩
    rw [State.withFrm_frm, hf]
    exact ⟨rfl, hrun⟩
  | command _ _ hf =>
    rw [hf] at hstage
    obtain ⟨hmidx, hacc, -⟩ := hstage
    refine framingInv_iff.2 ⟨⟨hwf, hbuf, chkUpd_lt _ _ _, hcause⟩, hmidx, fun _ => ?_⟩
    exact congrArg (chkUpd s.cfg · b) hacc
  | lengthBad _ _ hf =>
    rw [hf] at hstage
    obtain ⟨hmidx, -⟩ := hstage
    refine framingInv_iff.2 ⟨⟨hwf, hbuf, chkUpd_lt _ _ _, by simp⟩, ?_⟩
    rw [State.diagnoseAndRestart_frm, State.withFrm_frm, hf]
    exact ⟨hmidx, nofun⟩
  | lengthZero _ _ hf hb h0 =>
    rw [hf] at hstage
    obtain ⟨hmidx, hacc⟩ := hstage
    obtain ⟨hmin, hmax⟩ := hb
    subst h0
    refine framingInv_iff.2 ⟨⟨hwf, hbuf, chkUpd_lt _ _ _, hcause⟩, hmidx, hmin, hmax, ?_⟩
    exact congrArg (chkUpd s.cfg · 0) (hacc hrun)
  | lengthGood _ _ hf hb h0 =>
    rw [hf] at hstage
    obtain ⟨hmidx, hacc⟩ := hstage
    obtain ⟨hmin, hmax⟩ := hb
    have hpos : 0 < b.toNat := Nat.pos_of_ne_zero fun h => h0 (BitVec.eq_of_toNat_eq h)
    refine framingInv_iff.2
      ⟨⟨hwf, hbuf, chkUpd_lt _ _ _, hcause⟩, hmidx, hrun, hpos, hmin, hmax, ?_⟩
    exact congrArg (chkUpd s.cfg · b) (hacc hrun)
  | payload _ _ hf => exact storePayload_keeps_framingInv hf hinv
  | dispatch =>
    exact framingInv_iff.2 ⟨⟨hwf, freeBytes_length _ _, hinit, hcause⟩, rfl, hrun⟩
  | checksumBad _ _ hf =>
    refine framingInv_iff.2 ⟨⟨hwf, hbuf, hlt, by simp⟩, ?_⟩
    rw [hf] at hstage
    rw [State.diagnoseAndRestart_frm, hf]
    exact hstage

theorem step_keeps_framingInv (hinv : s.FramingInv) (h : step s = .next t) : t.FramingInv := by
  cases step_framing h with
  | reset rest hm ht => exact ht ▸ takeReset_framingInv (s := s.beginMove rest) hinv.1
  | byte b rest hm hb hrun he => exact he.frmByte_keeps_framingInv hrun hinv
  | other hm hb hsame => exact hsame.keeps_framingInv hinv

/-! ### The frame being received (R88, R129) -/

/-- The bytes of MAGIC, in order. -/
def magicBytes (c : Config) : List Byte := [c.magic0, c.magic1, c.magic2, c.magic3]

/-- The bytes of the frame that a unit in state f has received so far. -/
def State.frameSoFar (s : State) : FState → List Byte
  | .magic => (magicBytes s.cfg).take s.frm.midx.toNat
  | .command => magicBytes s.cfg
  | .length => magicBytes s.cfg ++ [s.frm.fcmd]
  | .payload =>
    magicBytes s.cfg ++ s.frm.fcmd :: s.frm.flen :: s.mem.pbuf.take s.frm.pidx.toNat
  | .checksum =>
    magicBytes s.cfg ++ s.frm.fcmd :: s.frm.flen :: s.mem.pbuf.take s.frm.flen.toNat

/-- The bytes fed end with the frame received so far, unless the block has stopped. -/
def State.Received (s : State) (fed : List Byte) : Prop :=
  s.fault = none → s.status.halted = false → s.frameSoFar s.frm.fstate <:+ fed

/-- What a dispatch has to show: the bytes fed end with the whole wire frame of what it dispatches,
whose length is an accepted one (R129). -/
structure WholeFrame (c : Config) (cmd len : Byte) (payload fed : List Byte) : Prop where
  length : len.toNat = payload.length
  min : c.pmin ≤ payload.length
  max : payload.length < c.maxPayload
  ends : wireFrame c cmd payload <:+ fed

/-- The bytes of MAGIC up to byte i are those before it, and it. -/
theorem take_magicBytes (c : Config) (i : BitVec 2) :
    (magicBytes c).take (i.toNat + 1) = (magicBytes c).take i.toNat ++ [magicByte c i] := by
  obtain rfl | rfl | rfl | rfl : i = 0 ∨ i = 1 ∨ i = 2 ∨ i = 3 := by revert i; decide
  all_goals rfl

theorem midx_succ_toNat {i : BitVec 2} (hi : i ≠ 3) : (i + 1).toNat = i.toNat + 1 := by
  revert i; decide

/-- R122 to R126: a byte that leaves the block running extends the frame received so far, or begins it
again with nothing or with itself. -/
theorem ExecEffect.frameSoFar_suffix {b : Byte} (h : ExecEffect (.frmByte b) s t)
    (hinv : s.FramingInv) (hfault : t.fault = none) (hrun : t.status.halted = false) :
    t.frameSoFar t.frm.fstate <:+ s.frameSoFar s.frm.fstate ++ [b] := by
  obtain ⟨⟨-, hbuf, -⟩, hstage⟩ := framingInv_iff.1 hinv
  cases h with
  | faults => cases hfault
  | lengthBad => cases hrun
  | checksumBad => cases hrun
  | magicLast _ _ hf hb hm =>
    have hwhole : magicBytes s.cfg = (magicBytes s.cfg).take s.frm.midx.toNat ++ [b] := by
      rw [hb, ← take_magicBytes, hm]; rfl
    rw [hf]
    exact ⟨[], hwhole⟩
  | magicMatch _ _ hf hb hm =>
    have htake := take_magicBytes s.cfg s.frm.midx
    rw [State.withFrm_frm, hf]
    simp only [State.frameSoFar, State.withFrm_frm, State.withFrm_cfg, midx_succ_toNat hm, htake,
      hb, List.suffix_rfl]
  | magicMiss _ _ hf =>
    rw [State.withFrm_frm, hf]
    by_cases hre : s.cfg.magicRetest = true ∧ b = s.cfg.magic0
    · simp only [State.frameSoFar, State.withFrm_frm, State.withFrm_cfg, if_pos hre]
      exact hre.2 ▸ List.suffix_append _ _
    · simp only [State.frameSoFar, State.withFrm_frm, State.withFrm_cfg, if_neg hre]
      exact List.nil_suffix
  | command _ _ hf => rw [hf]; exact List.suffix_rfl
  | lengthZero _ _ hf _ h0 =>
    subst h0
    rw [hf]
    simp [State.frameSoFar]
  | lengthGood _ _ hf =>
    rw [hf]
    simp [State.frameSoFar]
  | payload _ _ hf =>
    rw [hf] at hstage ⊢
    obtain ⟨-, -, hidx, -, hmax, -⟩ := hstage
    have hnext := pidx_succ_toNat hidx
    have htake := s.mem.take_storePayload b (hbuf.symm ▸ hidx.trans hmax)
    have hmore : magicBytes s.cfg ++ s.frm.fcmd :: s.frm.flen ::
        (s.mem.storePayload s.frm.pidx.toNat b).pbuf.take (s.frm.pidx + 1).toNat <:+
          s.frameSoFar .payload ++ [b] := by
      rw [hnext, htake]
      simp [State.frameSoFar]
    by_cases hend : s.frm.pidx + 1 = s.frm.flen
    · rw [hend] at hmore
      simp only [State.withFrm_frm, if_pos hend]
      exact hmore
    · simp only [State.withFrm_frm, if_neg hend]
      exact hmore
  | dispatch => exact List.nil_suffix

/-- R126, R129: a byte that dispatches is the checksum of the frame received so far, which it makes
whole. -/
theorem ExecEffect.dispatch_wholeFrame {b cmd len : Byte} {payload fed : List Byte}
    (h : ExecEffect (.frmByte b) s t) (hinv : s.FramingInv) (hout : s.out = [])
    (hsent : .dispatch cmd len payload ∈ t.out) (hfed : s.frameSoFar s.frm.fstate <:+ fed) :
    t.frm.fstate = .magic ∧ WholeFrame s.cfg cmd len payload (fed ++ [b]) := by
  obtain ⟨⟨-, hbuf, -⟩, hstage⟩ := framingInv_iff.1 hinv
  cases h with
  | dispatch _ _ hf hb hl =>
    rw [hf] at hstage hfed
    obtain ⟨-, hmin, hmax, hacc⟩ := hstage
    obtain ⟨rfl, rfl, rfl⟩ : cmd = s.frm.fcmd ∧ len = s.frm.flen ∧
        payload = s.mem.pbuf.take s.frm.flen.toNat := by simpa [hout] using hsent
    have hlen : (s.mem.pbuf.take s.frm.flen.toNat).length = s.frm.flen.toNat := by
      rw [List.length_take, hbuf, min_eq_left hl]
    have hframe : wireFrame s.cfg s.frm.fcmd (s.mem.pbuf.take s.frm.flen.toNat) =
        s.frameSoFar .checksum ++ [b] := by
      simp [wireFrame, coveredBytes, hlen, State.frameSoFar, magicBytes, hb, hacc]
    exact ⟨rfl, hlen.symm, hlen.symm ▸ hmin, hlen.symm ▸ hmax,
      hframe ▸ List.suffix_append_self_iff.2 hfed⟩
  | _ => simp [hout] at hsent

/-! ### Bytes fed under any schedule (R129, R130) -/

/-- The bytes fed since the last RESET after the next step of s, with fed before it. -/
def State.fedNext (s : State) (fed : List Byte) : List Byte :=
  if s.moves.head? = some .reset then [] else fed ++ s.acceptedByte.toList

theorem bytesFed_succ {k : Nat} (fed : List Byte) (h : step s = .next t) :
    bytesFed fed (k + 1) s = bytesFed (s.fedNext fed) k t := by
  simp only [bytesFed, h, State.fedNext]

theorem step_keeps_received {fed : List Byte} (hinv : s.FramingInv) (hrec : s.Received fed)
    (h : step s = .next t) : t.Received (s.fedNext fed) := by
  obtain ⟨-, hfault, -⟩ := step_next.1 h
  intro hfault' hrun'
  cases step_framing h with
  | reset rest hm ht => subst ht; exact List.nil_suffix
  | byte b rest hm hb hrun he =>
    have hfed : s.fedNext fed = fed ++ [b] := by simp [State.fedNext, hm, hb]
    rw [hfed]
    exact (he.frameSoFar_suffix (s := s.beginMove rest) hinv hfault' hrun').trans
      (List.suffix_append_self_iff.2 (hrec hfault hrun))
  | other hm hb hsame =>
    obtain ⟨hcfg, hfrm, hpbuf, hstatus⟩ := hsame
    have hfed : s.fedNext fed = fed := by simp [State.fedNext, hm, hb]
    have hframe : t.frameSoFar t.frm.fstate = s.frameSoFar s.frm.fstate := by
      rw [hfrm]
      cases s.frm.fstate <;> simp only [State.frameSoFar, hcfg, hfrm, hpbuf]
    rw [hfed, hframe]
    exact hrec hfault (hstatus ▸ hrun')

/-- R127, R129: a step that dispatches makes the frame received so far whole. -/
theorem step_dispatch_wholeFrame {fed payload : List Byte} {cmd len : Byte} (hinv : s.FramingInv)
    (hrec : s.Received fed) (h : step s = .next t) (hsent : .dispatch cmd len payload ∈ t.out) :
    t.frm.fstate = .magic ∧ WholeFrame s.cfg cmd len payload (s.fedNext fed) := by
  obtain ⟨-, hfault, -⟩ := step_next.1 h
  cases step_framing h with
  | reset rest hm ht => subst ht; simp at hsent
  | byte b rest hm hb hrun he =>
    have hfed : s.fedNext fed = fed ++ [b] := by simp [State.fedNext, hm, hb]
    rw [hfed]
    exact he.dispatch_wholeFrame (s := s.beginMove rest) hinv rfl hsent (hrec hfault hrun)
  | other hm hb hsame hout => exact (hout _ hsent).elim

theorem runSteps_succ_next {k : Nat} (h : runSteps (k + 1) s = .next t) :
    ∃ u, step s = .next u ∧ runSteps k u = .next t := by
  cases hs : step s with
  | next u => exact ⟨u, rfl, (runSteps_succ hs).symm.trans h⟩
  | fault r => simp [runSteps, hs] at h
  | refused r => simp [runSteps, hs] at h

/-- R129: the same after any number of steps, by induction on them. -/
theorem runSteps_dispatch_wholeFrame {k : Nat} {fed payload : List Byte} {cmd len : Byte}
    (hinv : s.FramingInv) (hrec : s.Received fed) (h : runSteps (k + 1) s = .next t)
    (hsent : .dispatch cmd len payload ∈ t.out) :
    t.frm.fstate = .magic ∧ WholeFrame s.cfg cmd len payload (bytesFed fed (k + 1) s) := by
  obtain ⟨u, hs, hrest⟩ := runSteps_succ_next h
  rw [bytesFed_succ fed hs]
  induction k generalizing s u fed with
  | zero =>
    cases hrest
    exact step_dispatch_wholeFrame hinv hrec hs hsent
  | succ k ih =>
    obtain ⟨v, hu, hrest'⟩ := runSteps_succ_next hrest
    rw [bytesFed_succ _ hu, ← step_keeps_cfg hs]
    exact ih (step_keeps_framingInv hinv hs) (step_keeps_received hinv hrec hs) hrest v hu hrest'

end

/-- Settles O33: the invariant of the framing unit is kept by a RESET, by every byte, and by a step that
leaves the unit alone. -/
theorem everyStepKeepsTheFramingInvariant : Obligations.EveryStepKeepsTheFramingInvariant :=
  fun _ _ => step_keeps_framingInv

/-- Settles O35: the bytes fed always end with the frame received so far, and the byte that dispatches
makes that frame whole. -/
theorem everyDispatchIsAWholeFrame : Obligations.EveryDispatchIsAWholeFrame := by
  intro s t k cmd len payload hinv hf hm hout h hsent
  cases k with
  | zero => cases h; simp [hout] at hsent
  | succ k =>
    have hrec : s.Received [] := fun _ _ => by rw [hf]; simp [State.frameSoFar, hm]
    obtain ⟨hmagic, ⟨hlen, hmin, hmax, hends⟩⟩ := runSteps_dispatch_wholeFrame hinv hrec h hsent
    exact ⟨hlen, hmin, hmax, hmagic, hends⟩

/-- Settles O55: a byte sends events of the framing unit only; what a step without one may send is in
`FramingStep.other`. -/
theorem outputEventsHaveTheirOneSender : Obligations.OutputEventsHaveTheirOneSender := by
  intro s t h
  cases step_framing h with
  | reset rest hm ht => subst ht; simp
  | byte b rest hm hb hrun he =>
    have hframing := he.frmByte_out rfl
    exact ⟨fun _ => ⟨b, by rw [hm]; rfl⟩, fun ho => absurd (hframing _ ho) (by decide),
      fun ho => absurd (hframing _ ho) (by decide)⟩
  | other hm hb hsame hout =>
    refine ⟨?_, fun ho => hout _ ho, fun ho => hout _ ho⟩
    rintro (⟨c, l, p, ho⟩ | ⟨c, ho⟩ | ⟨c, ho⟩) <;> exact (hout _ ho).elim

/-- Settles O29, by the three branches of the state MAGIC, the last with and without the re-test. -/
theorem magicMatchesOrResynchronizes : Obligations.MagicMatchesOrResynchronizes := by
  intro s b hf
  have hexec := execFrmByte_magic b hf
  refine ⟨fun hb hm => hexec.trans (frmMagic_last hb hm),
    fun hb hm => hexec.trans (frmMagic_match hb hm), fun hb hre h0 => ?_, fun hb hno => ?_⟩
  · have hmiss := frmMagic_miss hb
    rw [if_pos ⟨hre, h0⟩] at hmiss
    exact hexec.trans hmiss
  · have hmiss := frmMagic_miss hb
    rw [if_neg (by simpa [imp_iff_not_or] using hno)] at hmiss
    exact hexec.trans hmiss

/-- Settles O30, by the transitions of COMMAND and LENGTH. -/
theorem commandAndLengthBytes : Obligations.CommandAndLengthBytes := by
  intro s b
  refine ⟨fun hf => execFrmByte_command b hf, fun hf hb => ?_, fun hf hmin hmax h0 => ?_,
    fun hf hmin hmax h0 => (execFrmByte_length b hf).trans (frmLength_pos hmin hmax h0)⟩
  · have hbad := (execFrmByte_length b hf).trans (frmLength_bad hb)
    rw [diagnoseAndRestart_eq] at hbad
    exact hbad
  · subst h0
    exact (execFrmByte_length 0 hf).trans (frmLength_zero (Nat.le_zero.1 hmin) hmax)

/-- Settles O31: what a read of PBUF gives after the store is said by the memory laws. -/
theorem payloadByteIsStoredAtItsIndex : Obligations.PayloadByteIsStoredAtItsIndex := by
  intro s b hf hidx hbuf
  exact ⟨_, (execFrmByte_payload b hf).trans (if_pos hidx), rfl, rfl, List.length_set,
    s.mem.payloadByte_storePayload_same _ b (hbuf.symm ▸ hidx),
    fun a ha => s.mem.payloadByte_storePayload_other _ a b ha⟩

/-- Settles O32, by the two branches of the state CHECKSUM. -/
theorem checksumByteDispatchesOrRestarts : Obligations.ChecksumByteDispatchesOrRestarts := by
  intro s b hf hlen
  have hexec := execFrmByte_checksum b hf
  refine ⟨fun hb => ?_, fun hb => ?_⟩
  · exact ⟨_, hexec.trans (frmChecksum_match hb hlen), rfl, rfl, freeBytes_length _ _⟩
  · have hmiss := hexec.trans (frmChecksum_miss hb)
    rw [diagnoseAndRestart_eq] at hmiss
    exact hmiss

end Sys2Proof.Machine
end

section
/-! The counter/timer unit, step by step (spec/42_counter_timer.md R150 to R166): the events, the
two handler bodies branch by branch, and the operations of one step. -/

namespace Sys2Proof.Machine

open Sys2Proof

section
variable {s : State} {rest : List Move}

/-! ### Handler steps (R152, R153, R158, R162 to R165) -/

/-- The clearing of IE at the entry of a handler and the 1 its return writes (R153) cancel, where IE
is 1. -/
theorem setIe_setIe_true (hie : s.irq.ie = true) : (s.setIe false).setIe true = s := by
  show s.withIrq { s.irq with ie := true } = s
  rw [← hie]
  rfl

/-- R153: the edge handler returns with the IE = 1 it began with, so its step is its body. -/
theorem edgeHandler_eq_edgeBody (hie : s.irq.ie = true) (hbelow : s.ct.pulse ≠ 2 ^ s.cfg.pcw - 1) :
    edgeHandler s = .next (edgeBody s) :=
  (if_neg hbelow).trans (congrArg _ (setIe_setIe_true (s := edgeBody s) hie))

/-- The tick handler body does not look at IE. -/
theorem tickBody_setIe (s : State) (b : Bool) : tickBody (s.setIe b) = (tickBody s).setIe b := by
  simp only [tickBody_eq, apply_ite (State.setIe · b)]
  rfl

theorem tickBody_ie (s : State) : (tickBody s).irq.ie = s.irq.ie := by
  obtain ⟨_, _, _, _, _, hbody, -⟩ := tickBody_frame s
  rw [hbody]

/-- R153: the step of the tick handler is its body too. -/
theorem tickHandler_eq_tickBody (hie : s.irq.ie = true) : tickHandler s = .next (tickBody s) := by
  rw [tickHandler, enterHandler_eq, returnFromHandler_eq, tickBody_setIe,
    setIe_setIe_true ((tickBody_ie s).trans hie)]

theorem step_edgeIsr (hready : s.Ready) (hmoves : s.moves = .edgeIsr :: rest)
    (hie : s.irq.ie = true) (hpend : s.irq.pendEdge = true) :
    step s = edgeHandler (s.beginMove rest) := by
  obtain ⟨hwf, hfault, hrun⟩ := hready
  rw [step_ready hwf hfault hrun hmoves]
  exact if_pos (by simp [State.edgeHandlerEnabled, hie, hpend])

theorem step_tickIsr (hready : s.Ready) (hmoves : s.moves = .tickIsr :: rest)
    (hie : s.irq.ie = true) (hpend : s.irq.pendTick = true) :
    step s = .next (tickBody (s.beginMove rest)) := by
  obtain ⟨hwf, hfault, hrun⟩ := hready
  rw [step_ready hwf hfault hrun hmoves, ← tickHandler_eq_tickBody (s := s.beginMove rest) hie]
  exact if_pos (by simp [State.tickHandlerEnabled, hie, hpend])

/-- R158: the counted edge, below the last value of PULSE. -/
theorem step_edgeIsr_counts (hready : s.Ready) (hmoves : s.moves = .edgeIsr :: rest)
    (hie : s.irq.ie = true) (hpend : s.irq.pendEdge = true)
    (hbelow : s.ct.pulse ≠ 2 ^ s.cfg.pcw - 1) :
    step s = .next (edgeBody (s.beginMove rest)) :=
  (step_edgeIsr hready hmoves hie hpend).trans (edgeHandler_eq_edgeBody hie hbelow)

/-- R158: OVERFLOW at the last value of PULSE. -/
theorem step_edgeIsr_overflows (hready : s.Ready) (hmoves : s.moves = .edgeIsr :: rest)
    (hie : s.irq.ie = true) (hpend : s.irq.pendEdge = true)
    (hlast : s.ct.pulse = 2 ^ s.cfg.pcw - 1) :
    step s = raiseFault .overflow .edgeHandler (s.beginMove rest) :=
  (step_edgeIsr hready hmoves hie hpend).trans (if_pos hlast)

/-! ### The branches of the tick handler body (R162 to R165) -/

theorem running_of_armed {m : TMode} (h : m = .total ∨ m = .interval) : m.running = true := by
  rcases h with rfl | rfl <;> rfl

theorem not_running_of_rest {m : TMode} (h : m = .idle ∨ m = .stopped) : ¬ m.running = true := by
  rcases h with rfl | rfl <;> decide

/-- R165: a timer that does not run. -/
theorem tickBody_of_not_running (h : ¬ s.ct.tmode.running = true) :
    tickBody s = s.withIrq { s.irq with pendTick := false } :=
  (tickBody_eq s).trans (if_neg h)

/-- R162: the countdown above 1. -/
theorem tickBody_counts (hrun : s.ct.tmode.running = true) (hlive : 2 ≤ s.ct.live)
    (hlt : s.ct.live < 2 ^ s.cfg.tw) : tickBody s =
      (s.withCt { s.ct with shadow := s.ct.live, live := s.ct.live - 1 }).withIrq
        { s.irq with pendTick := false } := by
  have hdown : (countDown s).ct.live = s.ct.live - 1 := countDown_live hlt (by omega)
  rw [tickBody_eq, if_pos hrun, if_neg (by omega), ← hdown]
  rfl

/-- R162: the countdown at 1 comes to 0. -/
theorem countDown_of_one (htw : 0 < s.cfg.tw) (hlive : s.ct.live = 1) :
    countDown s = s.withCt { s.ct with shadow := 1, live := 0 } := by
  have hdown : (countDown s).ct.live = 0 := by
    rw [countDown_live (by rw [hlive]; exact Nat.one_lt_two_pow htw.ne') hlive.ge, hlive]
  rw [← hdown, ← hlive]
  rfl

/-- R164: the end of a TOTAL measurement. -/
theorem tickBody_finishes (htw : 0 < s.cfg.tw) (hmode : s.ct.tmode = .total)
    (hlive : s.ct.live = 1) : tickBody s =
      ((s.withCt { s.ct with shadow := 1, live := 0, finished := true, tmode := .stopped }).withIrq
        { s.irq with pendTick := false }).emit .finishedEvent := by
  rw [tickBody_eq, if_pos (running_of_armed (.inl hmode)), countDown_of_one htw hlive]
  exact (if_pos rfl).trans (if_pos hmode)

/-- R163: the end of an interval. -/
theorem tickBody_rotates (htw : 0 < s.cfg.tw) (hmode : s.ct.tmode = .interval)
    (hlive : s.ct.live = 1) : tickBody s =
      ((push s.ct.pulse s).withCt { s.ct with
        pulse := 0, shadow := (s.ct.reload + 1) % 2 ^ s.cfg.tw, live := s.ct.reload }).withIrq
          { s.irq with pendTick := false } := by
  rw [tickBody_eq, if_pos (running_of_armed (.inr hmode)), countDown_of_one htw hlive]
  exact (if_pos rfl).trans (if_neg (by simp [hmode]))

/-! ### TMR_ARM (R161) -/

theorem execTmrArm_arms (mode : ArmMode) {v : Word} (hidle : s.ct.tmode = .idle)
    (hlow : 1 ≤ v.toNat) (hhigh : v.toNat < 2 ^ s.cfg.tw) : execTmrArm mode v s =
      .next ((s.withCt { s.ct with
        shadow := (v.toNat + 1) % 2 ^ s.cfg.tw
        live := v.toNat
        reload := v.toNat
        tmode := armedMode mode
        finished := false }).withIrq { s.irq with pendTick := false }) :=
  (if_neg (not_not.2 hidle)).trans (if_pos (decide_eq_true ⟨hlow, hhigh⟩))

theorem execTmrArm_active (mode : ArmMode) (v : Word) (hbusy : s.ct.tmode ≠ .idle) :
    execTmrArm mode v s = raiseFault .armActive (originOf (.tmrArm mode v)) s :=
  if_pos hbusy

theorem execTmrArm_range (mode : ArmMode) {v : Word} (hidle : s.ct.tmode = .idle)
    (hv : v.toNat = 0 ∨ 2 ^ s.cfg.tw ≤ v.toNat) :
    execTmrArm mode v s = raiseFault .armRange (originOf (.tmrArm mode v)) s := by
  have hout : ¬ countdownFits s.cfg v = true := by
    rw [countdownFits, decide_eq_true_eq]
    omega
  exact (if_neg (not_not.2 hidle)).trans (if_neg hout)

end

/-! ### Interrupt control (R154 to R157) -/

/-- R157: bits 7:1 of operand B of IRQ_RESTORE must be 0. -/
theorem decode_irqRestore_illegal {b : Byte} (hb : 2 ≤ b.toNat) :
    decode (requestWord 0x05 0 b 0) = .illegal .mustBeZero := by
  have hop : (fieldOp (requestWord 0x05 0 b 0)).toNat = (Instr.irqRestore true).opcode :=
    fieldOp_requestWord 0x05 0 b 0 (by decide)
  have hfit : ¬ Format.opb1.fits (requestWord 0x05 0 b 0) = true := by
    have hfield : fieldB (requestWord 0x05 0 b 0) = b := fieldB_requestWord 0x05 0 b 0 (by decide)
    intro h
    simp only [Format.fits, hfield, Bool.and_eq_true, decide_eq_true_eq] at h
    omega
  rw [decode_of_opcode hop]
  exact if_neg hfit

/-- R156, R157: IRQ_RESTORE of the flag that IRQ_SAVE_DISABLE drove gives IE back. -/
theorem restore_of_saved (saved : Bool) : decide (flagWord saved = 1) = saved := by
  cases saved <;> decide

/-- Settles O12: each event is its one update; the tick looks at the timer mode first. -/
theorem eventsSetTheirPendingFlag : Obligations.EventsSetTheirPendingFlag := by
  intro s rest ⟨hwf, hfault, hrun⟩
  refine ⟨fun hm => step_ready hwf hfault hrun hm, fun hm hmode => ?_, fun hm hmode => ?_⟩
  · rw [step_ready hwf hfault hrun hm]
    exact congrArg _ (if_pos (running_of_armed hmode))
  · rw [step_ready hwf hfault hrun hm]
    exact congrArg _ (if_neg (not_running_of_rest hmode))

/-- Settles O14, by the two outcomes of the edge handler. -/
theorem edgeHandlerCountsOneEdge : Obligations.EdgeHandlerCountsOneEdge :=
  fun _ _ hready hm hie hpend =>
    ⟨fun hbelow => step_edgeIsr_counts hready hm hie hpend hbelow.ne,
      step_edgeIsr_overflows hready hm hie hpend⟩

/-- Settles O15, by the countdown branch of the tick handler. -/
theorem tickHandlerCountsDown : Obligations.TickHandlerCountsDown :=
  fun s rest hready hm hie hpend hmode hlive hlt => (step_tickIsr hready hm hie hpend).trans
    (congrArg _ (tickBody_counts (s := s.beginMove rest) (running_of_armed hmode) hlive hlt))

/-- Settles O16, by the branch of the tick handler that rotates. -/
theorem intervalTickRotatesTheRing : Obligations.IntervalTickRotatesTheRing :=
  fun s rest hready hm hie hpend hmode hlive => (step_tickIsr hready hm hie hpend).trans
    (congrArg _ (tickBody_rotates (s := s.beginMove rest) (tw_pos hready.1) hmode hlive))

/-- Settles O17, by the branch of the tick handler that finishes. -/
theorem totalTickFinishesTheMeasurement : Obligations.TotalTickFinishesTheMeasurement :=
  fun s rest hready hm hie hpend hmode hlive => (step_tickIsr hready hm hie hpend).trans
    (congrArg _ (tickBody_finishes (s := s.beginMove rest) (tw_pos hready.1) hmode hlive))

/-- Settles O18, by the branch of the tick handler for a timer that does not run. -/
theorem tickHandlerOfAStoppedTimer : Obligations.TickHandlerOfAStoppedTimer :=
  fun s rest hready hm hie hpend hmode => (step_tickIsr hready hm hie hpend).trans
    (congrArg _ (tickBody_of_not_running (s := s.beginMove rest) (not_running_of_rest hmode)))

/-- Settles O20: the words by computation, and what IRQ_RESTORE gives back by the flag it is given.
-/
theorem interruptControlOperations : Obligations.InterruptControlOperations := by
  refine ⟨rfl, rfl, rfl, rfl, rfl, fun b hb => ⟨_, decode_irqRestore_illegal hb⟩, fun s =>
    ⟨rfl, rfl, rfl, fun b => rfl, fun t v hsave hout => ?_⟩⟩
  cases hsave
  obtain rfl : flagWord s.irq.ie = v := by simpa using hout
  refine ⟨_, rfl, ?_⟩
  show ({ s.irq with ie := _ } : IrqCtl) = s.irq
  rw [restore_of_saved]

/-- Settles O22: a critical section gives IE back, so the access is the whole effect. -/
theorem pulseCounterReads : Obligations.PulseCounterReads :=
  ⟨rfl, rfl, fun _ => ⟨rfl, rfl⟩⟩

/-- Settles O23, by the three outcomes of TMR_ARM. -/
theorem timerArmStartsTheCountdownOrFaults : Obligations.TimerArmStartsTheCountdownOrFaults := by
  refine fun s mode v => ⟨fun hidle hlow hhigh => (execTmrArm_arms mode hidle hlow hhigh).trans ?_,
    execTmrArm_active mode v, execTmrArm_range mode⟩
  cases mode <;> rfl

/-- Settles O24: the operation drives the flag and writes nothing. -/
theorem readFinishedDrivesTheFlag : Obligations.ReadFinishedDrivesTheFlag :=
  ⟨rfl, fun _ => rfl⟩

end Sys2Proof.Machine
end

section
/-! TMR_READ_SYNC (spec/42_counter_timer.md R167 to R169): its micro-steps, what the byte reads keep
while other agents step between them, and the consistency test. With SHADOW one above LIVE, an
attempt can only end with the LIVE that its SHADOW bytes stand beside. -/

namespace Sys2Proof.Machine

open Sys2Proof

/-! ### Values read byte by byte (R64) -/

section
variable {a : ByteAcc} {v w : Nat}

/-- The bytes read so far are bytes of v, each in its place. -/
def ByteAcc.Reads (v : Nat) (a : ByteAcc) : Prop := a.value + bytesAt v a.left = v

theorem ByteAcc.Reads.read (h : a.Reads v) (pick : Nat) (hleft : a.left ≠ []) :
    (a.read v pick).Reads v :=
  (a.read_value v pick hleft).trans h

theorem ByteAcc.Reads.value_eq (h : a.Reads v) (hleft : a.left = []) : a.value = v := by
  simpa [ByteAcc.Reads, hleft, bytesAt] using h

theorem start_reads (hbytes : w % 8 = 0) (hv : v < 2 ^ w) : (ByteAcc.start w).Reads v := by
  show 0 + bytesAt v (List.range (w / 8)) = v
  rw [Nat.zero_add, bytesAt_range, pow_bytes w hbytes, Nat.mod_eq_of_lt hv]

/-- The most that the bytes still left can add to a value. -/
def bytesRoom (left : List Nat) : Nat := (left.map fun k => 255 * 256 ^ k).sum

theorem bytesRoom_erase {left : List Nat} {k : Nat} (h : k ∈ left) :
    bytesRoom left = 255 * 256 ^ k + bytesRoom (left.erase k) := by
  unfold bytesRoom
  rw [((List.perm_cons_erase h).map _).sum_eq, List.map_cons, List.sum_cons]

theorem bytesRoom_range (n : Nat) : bytesRoom (List.range n) + 1 = 256 ^ n := by
  induction n with
  | zero => rfl
  | succ n ih =>
    have hlast : bytesRoom (List.range (n + 1)) = bytesRoom (List.range n) + 255 * 256 ^ n := by
      simp [bytesRoom, List.range_succ]
    rw [hlast, Nat.pow_succ]
    omega

/-- Whatever the bytes still left are, the value stays a w-bit one. -/
def ByteAcc.Fits (w : Nat) (a : ByteAcc) : Prop := a.value + bytesRoom a.left < 2 ^ w

theorem ByteAcc.Fits.read (h : a.Fits w) (v pick : Nat) (hleft : a.left ≠ []) :
    (a.read v pick).Fits w := by
  have hroom := bytesRoom_erase (a.choose_mem pick hleft)
  have hbyte : byteOf v (a.choose pick) * 256 ^ a.choose pick ≤ 255 * 256 ^ a.choose pick :=
    Nat.mul_le_mul_right _ (Nat.le_of_lt_succ (Nat.mod_lt _ (by decide)))
  unfold ByteAcc.Fits at h ⊢
  show a.value + byteOf v (a.choose pick) * 256 ^ a.choose pick +
    bytesRoom (a.left.erase (a.choose pick)) < _
  omega

theorem ByteAcc.Fits.value_lt (h : a.Fits w) : a.value < 2 ^ w :=
  (Nat.le_add_right _ _).trans_lt h

theorem start_fits (hbytes : w % 8 = 0) : (ByteAcc.start w).Fits w := by
  show 0 + bytesRoom (List.range (w / 8)) < 2 ^ w
  have hrange := bytesRoom_range (w / 8)
  rw [pow_bytes w hbytes] at hrange
  omega

theorem ByteAcc.choose_singleton {k : Nat} (h : a.left = [k]) (pick : Nat) : a.choose pick = k := by
  simp [ByteAcc.choose, h, Nat.mod_one]

theorem ByteAcc.read_left_of_singleton {k : Nat} (h : a.left = [k]) (v pick : Nat) :
    (a.read v pick).left = [] := by
  show a.left.erase (a.choose pick) = []
  rw [choose_singleton h, h, List.erase_cons_head]

/-- R7: the timer has at least one byte, and whole bytes. -/
theorem tw_bytes {c : Config} (hwf : c.wf = true) : 0 < c.tw / 8 ∧ c.tw % 8 = 0 := by
  obtain ⟨-, -, -, ⟨hlow, -, hbytes⟩, -⟩ := (config_wf_iff c).1 hwf
  exact ⟨by omega, hbytes⟩

theorem start_left_ne_nil {c : Config} (hwf : c.wf = true) : (ByteAcc.start c.tw).left ≠ [] := by
  have := (tw_bytes hwf).1
  simp only [ByteAcc.start, ne_eq, List.range_eq_nil]
  omega

end

/-! ### The consistency test (R167) -/

/-- The test accepts x beside a whole SHADOW exactly where x is the LIVE of that SHADOW (R35). -/
theorem syncConsistent_shadow_iff {c : Config} {x live : Nat} (hwf : c.wf = true)
    (hx : x < 2 ^ c.tw) (hlive : live < 2 ^ c.tw) :
    syncConsistent c x ((live + 1) % 2 ^ c.tw) = true ↔ x = live := by
  have hone : 1 < 2 ^ c.tw := Nat.one_lt_two_pow (tw_pos hwf).ne'
  rw [syncConsistent, decide_eq_true_eq]
  generalize 2 ^ c.tw = n at *
  have hsum : (live + 1) % n + n - x + x ≡ live + 1 [MOD n] := by
    rw [Nat.sub_add_cancel (by omega)]
    exact (Nat.add_mod_right _ _).trans (Nat.mod_mod _ _)
  calc ((live + 1) % n + n - x) % n = 1
      ↔ (live + 1) % n + n - x ≡ 1 [MOD n] := by rw [Nat.ModEq, Nat.mod_eq_of_lt hone]
    _ ↔ (live + 1) % n + n - x + x ≡ 1 + x [MOD n] := (Nat.ModEq.add_iff_right rfl).symm
    _ ↔ live + 1 ≡ x + 1 [MOD n] := by rw [Nat.add_comm 1 x]; exact ⟨hsum.symm.trans, hsum.trans⟩
    _ ↔ live ≡ x [MOD n] := Nat.ModEq.add_iff_right rfl
    _ ↔ x = live := ⟨fun h => (h.eq_of_lt_of_lt hlive hx).symm, fun h => h ▸ rfl⟩

section
variable {s t : State} {l sh : ByteAcc} {rest : List Move}

/-! ### The micro-steps (R167) -/

theorem syncStep_live (hl : l.left ≠ []) : syncStep l sh s =
    .next (s.usePick.withOp (.tmrReadSync (l.read s.ct.live s.pick) sh)) :=
  if_neg (by simpa using hl)

theorem syncStep_shadow (hl : l.left = []) (hsh : (sh.read s.ct.shadow s.pick).left ≠ []) :
    syncStep l sh s =
      .next (s.usePick.withOp (.tmrReadSync l (sh.read s.ct.shadow s.pick))) :=
  (if_pos (by simpa using hl)).trans (if_neg (by simpa using hsh))

theorem syncStep_decides (hl : l.left = []) (hsh : (sh.read s.ct.shadow s.pick).left = []) :
    syncStep l sh s =
      if syncConsistent s.cfg l.value (sh.read s.ct.shadow s.pick).value = true then
        .next ((s.usePick.withOp .idle).driveRes (zext32 l.value))
      else .next (s.usePick.withOp (syncAttemptStart s.cfg)) :=
  (if_pos (by simpa using hl)).trans (if_pos (by simpa using hsh))

theorem microStep_sync (ho : s.op = .tmrReadSync l sh) : microStep s = syncStep l sh s := by
  unfold microStep; rw [ho]

theorem step_micro (hready : s.Ready) (hmoves : s.moves = .micro :: rest) :
    step s = microStep (s.beginMove rest) := by
  obtain ⟨hwf, hfault, hrun⟩ := hready
  exact step_ready hwf hfault hrun hmoves

theorem step_micro_sync (hready : s.Ready) (ho : s.op = .tmrReadSync l sh)
    (hmoves : s.moves = .micro :: rest) : step s = syncStep l sh (s.beginMove rest) :=
  (step_micro hready hmoves).trans (microStep_sync ho)

/-- Accepting TMR_READ_SYNC is the first micro-step from the start of an attempt. -/
theorem execTmrReadSync_eq_microStep (s : State) :
    execTmrReadSync s = microStep (s.withOp (syncAttemptStart s.cfg)) := rfl

end

/-- Settles O25, by the branches of the micro-step; the byte k is the one the choice selects. -/
theorem readSyncMicroSteps : Obligations.ReadSyncMicroSteps := by
  refine ⟨rfl, fun s hwf => ?_, fun s rest l sh hready ho hmoves => ?_⟩
  · have hleft := start_left_ne_nil hwf
    refine ⟨_, List.mem_range.1 ((ByteAcc.start s.cfg.tw).choose_mem s.pick hleft), ?_⟩
    rw [← Nat.zero_add (_ * _)]
    exact syncStep_live hleft
  · rw [step_micro_sync hready ho hmoves]
    refine ⟨fun hl => ⟨_, l.choose_mem s.pick hl, syncStep_live hl⟩, fun hl hsh => ?_,
      fun k hl hsh => ?_⟩
    · have hleft : sh.left ≠ [] := by rintro h; simp [h] at hsh
      have hmore : (sh.read s.ct.shadow s.pick).left ≠ [] := by
        rw [← List.length_pos_iff, sh.read_left_length _ _ hleft]; omega
      exact ⟨_, sh.choose_mem s.pick hleft, syncStep_shadow hl hmore⟩
    · have hdecides := syncStep_decides (s := s.beginMove rest) hl
        (ByteAcc.read_left_of_singleton hsh s.ct.shadow s.pick)
      have hvalue : (sh.read s.ct.shadow s.pick).value =
          sh.value + s.ct.shadow / 256 ^ k % 256 * 256 ^ k := by
        show _ + byteOf _ (sh.choose s.pick) * 256 ^ sh.choose s.pick = _
        rw [ByteAcc.choose_singleton hsh, byteOf]
      rw [← hvalue]
      exact ⟨fun h => hdecides.trans (if_pos (decide_eq_true h)),
        fun h => hdecides.trans (if_neg (mt of_decide_eq_true h))⟩

/-! ### What the byte reads of an attempt keep -/

/-- At LIVE = live and SHADOW = shadow, no byte read of an attempt breaks P, which speaks of the
bytes of LIVE and of SHADOW read so far. -/
structure KeptByReads (live shadow : Nat) (P : ByteAcc → ByteAcc → Prop) : Prop where
  ofLive : ∀ {l sh} pick, l.left ≠ [] → P l sh → P (l.read live pick) sh
  ofShadow : ∀ {l sh} pick, l.left = [] → sh.left ≠ [] → P l sh → P l (sh.read shadow pick)

/-- OPSTATE is inside an attempt of TMR_READ_SYNC that has n bytes still to read, the last of them
of SHADOW, and whose bytes so far meet P. -/
def OpState.Reading (P : ByteAcc → ByteAcc → Prop) (n : Nat) (o : OpState) : Prop :=
  ∃ l sh, o = .tmrReadSync l sh ∧ sh.left ≠ [] ∧ l.left.length + sh.left.length = n ∧ P l sh

theorem OpState.Reading.mono {P Q : ByteAcc → ByteAcc → Prop} {n : Nat} {o : OpState}
    (h : o.Reading P n) (hPQ : ∀ l sh, P l sh → Q l sh) : o.Reading Q n := by
  obtain ⟨l, sh, ho, hsh, hn, hP⟩ := h
  exact ⟨l, sh, ho, hsh, hn, hPQ l sh hP⟩

theorem syncAttemptStart_reading {P : ByteAcc → ByteAcc → Prop} {c : Config} (hwf : c.wf = true)
    (hP : P (.start c.tw) (.start c.tw)) : (syncAttemptStart c).Reading P (2 * (c.tw / 8)) :=
  ⟨_, _, rfl, start_left_ne_nil hwf, by simp [ByteAcc.start]; omega, hP⟩

section
variable {s t : State} {P : ByteAcc → ByteAcc → Prop} {n : Nat}

/-- With two bytes or more to read, a micro-step reads one. -/
theorem microStep_reads (hkept : KeptByReads s.ct.live s.ct.shadow P)
    (h : s.op.Reading P (n + 1)) (hn : 0 < n) :
    ∃ o, o.Reading P n ∧ microStep s = .next (s.usePick.withOp o) := by
  obtain ⟨l, sh, ho, hsh, hlen, hP⟩ := h
  rw [microStep_sync ho]
  by_cases hl : l.left = []
  · rw [hl, List.length_nil] at hlen
    have hlen' := sh.read_left_length s.ct.shadow s.pick hsh
    have hmore : (sh.read s.ct.shadow s.pick).left ≠ [] := by
      rw [← List.length_pos_iff]; omega
    exact ⟨_, ⟨l, _, rfl, hmore, by rw [hl, List.length_nil]; omega, hkept.ofShadow _ hl hsh hP⟩,
      syncStep_shadow hl hmore⟩
  · have hlen' := l.read_left_length s.ct.live s.pick hl
    have hpos := List.length_pos_iff.2 hl
    exact ⟨_, ⟨_, sh, rfl, hsh, by omega, hkept.ofLive _ hl hP⟩, syncStep_live hl⟩

/-- The micro-step that reads the last byte decides the attempt. -/
theorem microStep_decides (hkept : KeptByReads s.ct.live s.ct.shadow P) (h : s.op.Reading P 1) :
    ∃ l sh, l.left = [] ∧ sh.left = [] ∧ P l sh ∧ microStep s =
      if syncConsistent s.cfg l.value sh.value = true then
        .next ((s.usePick.withOp .idle).driveRes (zext32 l.value))
      else .next (s.usePick.withOp (syncAttemptStart s.cfg)) := by
  obtain ⟨l, sh, ho, hsh, hlen, hP⟩ := h
  have hpos := List.length_pos_iff.2 hsh
  have hl : l.left = [] := List.length_eq_zero_iff.1 (by omega)
  have hlast : (sh.read s.ct.shadow s.pick).left = [] := by
    rw [← List.length_eq_zero_iff, sh.read_left_length _ _ hsh]; omega
  exact ⟨l, _, hl, hlast, hkept.ofShadow _ hl hsh hP,
    (microStep_sync ho).trans (syncStep_decides hl hlast)⟩

end

/-! ### Runs inside an attempt -/

/-- The moves ms, in which an attempt reads `bytes` bytes, take the block from s to t: they are at
the front of the schedule of s, and write only OPSTATE, PULSE and the pending flags. -/
structure ReadsOn (s : State) (ms : List Move) (bytes : Nat) (t : State) : Prop where
  run : runSteps ms.length s = .next t
  moves : s.moves = ms ++ t.moves
  picks : t.picks = s.picks.drop bytes
  pulse : t.ct.pulse ≤ s.ct.pulse + ms.count .edgeIsr
  frame : t = { s with
    moves := t.moves, picks := t.picks, out := t.out, op := t.op
    ct := { s.ct with pulse := t.ct.pulse }
    irq := { s.irq with pendEdge := t.irq.pendEdge, pendTick := t.irq.pendTick } }

section
variable {s t u : State} {ms ms' rest : List Move} {b b' : Nat}

theorem ReadsOn.cfg (h : ReadsOn s ms b t) : t.cfg = s.cfg := by rw [h.frame]

theorem ReadsOn.live (h : ReadsOn s ms b t) : t.ct.live = s.ct.live := by rw [h.frame]

theorem ReadsOn.shadow (h : ReadsOn s ms b t) : t.ct.shadow = s.ct.shadow := by rw [h.frame]

theorem ReadsOn.ie (h : ReadsOn s ms b t) : t.irq.ie = s.irq.ie := by rw [h.frame]

theorem ReadsOn.ready (h : ReadsOn s ms b t) (hready : s.Ready) : t.Ready := by
  rw [h.frame]; exact hready

theorem ReadsOn.timerInv (h : ReadsOn s ms b t) (hinv : s.TimerInv) : t.TimerInv := by
  rw [h.frame]; exact hinv

theorem admits_append_left (hadm : s.Admits (ms ++ ms')) : s.Admits ms := by
  obtain ⟨hreset, hpulse⟩ := hadm
  rw [List.count_append] at hpulse
  exact ⟨fun hmem => hreset (List.mem_append_left _ hmem), by omega⟩

theorem ReadsOn.admits (h : ReadsOn s ms b t) (hadm : s.Admits (ms ++ ms')) : t.Admits ms' := by
  obtain ⟨hreset, hpulse⟩ := hadm
  rw [List.count_append] at hpulse
  have hle := h.pulse
  exact ⟨fun hmem => hreset (List.mem_append_right _ hmem), by rw [h.cfg]; omega⟩

theorem ReadsOn.refl (s : State) : ReadsOn s [] 0 s :=
  ⟨rfl, rfl, rfl, Nat.le_add_right _ _, rfl⟩

theorem ReadsOn.trans (h : ReadsOn s ms b t) (h' : ReadsOn t ms' b' u) :
    ReadsOn s (ms ++ ms') (b + b') u where
  run := by rw [List.length_append, runSteps_add h.run, h'.run]
  moves := by rw [h.moves, h'.moves, List.append_assoc]
  picks := by rw [h'.picks, h.picks, List.drop_drop]
  pulse := by
    have := h.pulse
    have := h'.pulse
    rw [List.count_append]
    omega
  frame := h'.frame.trans (by rw [h.frame])

/-! ### The moves of an attempt -/

section
variable {P : ByteAcc → ByteAcc → Prop} {n : Nat}

theorem readsOn_micro (hready : s.Ready) (hmoves : s.moves = .micro :: rest)
    (hkept : KeptByReads s.ct.live s.ct.shadow P) (h : s.op.Reading P (n + 1)) (hn : 0 < n) :
    ∃ t, ReadsOn s [.micro] 1 t ∧ t.moves = rest ∧ t.op.Reading P n := by
  obtain ⟨o, ho, hmicro⟩ := microStep_reads (s := s.beginMove rest) hkept h hn
  exact ⟨_, ⟨runSteps_succ ((step_micro hready hmoves).trans hmicro), hmoves, List.drop_one.symm,
    Nat.le_add_right _ _, rfl⟩, rfl, ho⟩

/-- A turn of another agent, unless it is RESET, a tick handler step or an overflow. -/
theorem readsOn_other {m : Move} (hready : s.Ready) (hmoves : s.moves = m :: rest)
    (h : s.op.Reading P n) (hmicro : m ≠ .micro) (hadm : s.Admits [m])
    (htick : s.irq.ie = true → m ≠ .tickIsr) :
    ∃ t, ReadsOn s [m] 0 t ∧ t.moves = rest ∧ t.op.Reading P n := by
  have ⟨l, sh, ho, _⟩ := h
  have hreset : m ≠ .reset := by rintro rfl; exact hadm.1 (List.mem_singleton_self _)
  have hdisabled : m = .tickIsr → s.tickHandlerEnabled = false := by
    intro hm
    simp only [State.tickHandlerEnabled, Bool.and_eq_false_iff]
    exact .inl (Bool.eq_false_iff.2 fun hie => htick hie hm)
  obtain ⟨o, p, e, k, hstep, hp⟩ :=
    step_other_during_sync hready ho hmoves hmicro hreset hdisabled hadm.2
  exact ⟨_, ⟨runSteps_succ hstep, hmoves, rfl, hp, rfl⟩, rfl, h⟩

/-- An attempt goes on through any moves but RESET, a tick handler step and an overflow, as long as
they leave bytes to read. -/
theorem readsOn_moves (hready : s.Ready) (hmoves : s.moves = ms ++ rest)
    (hkept : KeptByReads s.ct.live s.ct.shadow P) (h : s.op.Reading P (n + ms.count .micro))
    (hn : 0 < n) (hadm : s.Admits ms) (htick : s.irq.ie = true → .tickIsr ∉ ms) :
    ∃ t, ReadsOn s ms (ms.count .micro) t ∧ t.moves = rest ∧ t.op.Reading P n := by
  induction ms generalizing s with
  | nil => exact ⟨s, .refl s, hmoves, h⟩
  | cons m ms ih =>
    have hfirst : ∃ u, ReadsOn s [m] ([m].count .micro) u ∧ u.moves = ms ++ rest ∧
        u.op.Reading P (n + ms.count .micro) := by
      by_cases hm : m = .micro
      · subst hm
        rw [List.count_cons_self] at h
        exact readsOn_micro hready hmoves hkept h (by omega)
      · have hadm' : s.Admits [m] := admits_append_left (ms := [m]) hadm
        rw [List.count_cons_of_ne hm] at h
        rw [List.count_singleton, if_neg (by simpa using hm)]
        exact readsOn_other hready hmoves h hm hadm' fun hie hmt =>
          htick hie (hmt ▸ List.mem_cons_self)
    obtain ⟨u, hu, hum, huop⟩ := hfirst
    obtain ⟨t, ht, htm, htop⟩ := ih (hu.ready hready) hum (by rwa [hu.live, hu.shadow]) huop
      (hu.admits hadm) fun hie hmem => htick (hu.ie ▸ hie) (List.mem_cons_of_mem m hmem)
    have hcount : (m :: ms).count .micro = [m].count .micro + ms.count .micro :=
      List.count_append (l₁ := [m])
    exact ⟨t, hcount ▸ hu.trans ht, htm, htop⟩

/-- The start of an attempt: the accepted request has read one byte, the position a retry leaves
none. -/
theorem readsOn_start {start : List Move} {left : Nat} (hready : s.Ready)
    (hstart : s.AttemptStarts start left) (hmoves : s.moves = start ++ rest)
    (hkept : KeptByReads s.ct.live s.ct.shadow P)
    (hP : P (.start s.cfg.tw) (.start s.cfg.tw)) :
    ∃ t, ReadsOn s start (2 * (s.cfg.tw / 8) - left) t ∧ t.moves = rest ∧
      t.op.Reading P left := by
  obtain ⟨hbytes, -⟩ := tw_bytes hready.1
  have hreading := syncAttemptStart_reading hready.1 hP
  obtain ⟨hidle, rfl, rfl⟩ | ⟨hretry, rfl, rfl⟩ := hstart
  · obtain ⟨o, ho, hmicro⟩ := microStep_reads
      (s := (s.beginMove rest).withOp (syncAttemptStart s.cfg))
      (n := 2 * (s.cfg.tw / 8) - 1) hkept
      (by rw [Nat.sub_add_cancel (by omega)]; exact hreading) (by omega)
    have hstep := (step_request_instr hready hidle hmoves (decode_encode _)).trans
      ((execTmrReadSync_eq_microStep (s.beginMove rest)).trans hmicro)
    have hone : 2 * (s.cfg.tw / 8) - (2 * (s.cfg.tw / 8) - 1) = 1 := by omega
    rw [hone]
    exact ⟨_, ⟨runSteps_succ hstep, hmoves, List.drop_one.symm, Nat.le_add_right _ _, rfl⟩, rfl, ho⟩
  · rw [Nat.sub_self]
    exact ⟨s, .refl s, hmoves, by rwa [hretry]⟩

theorem admits_start {start : List Move} {left : Nat} (hstart : s.AttemptStarts start left)
    (hadm : s.Admits ms) : s.Admits (start ++ ms) := by
  obtain ⟨-, rfl, -⟩ | ⟨-, rfl, -⟩ := hstart
  · simpa [State.Admits] using hadm
  · exact hadm

/-- An attempt from its start, up to the last n bytes. -/
theorem readsOn_attempt {start : List Move} {left : Nat} (hready : s.Ready)
    (hstart : s.AttemptStarts start left) (hmoves : s.moves = start ++ (ms ++ rest))
    (hkept : KeptByReads s.ct.live s.ct.shadow P) (hP : P (.start s.cfg.tw) (.start s.cfg.tw))
    (hleft : n + ms.count .micro = left) (hn : 0 < n) (hadm : s.Admits ms)
    (htick : s.irq.ie = true → .tickIsr ∉ ms) :
    ∃ t, ReadsOn s (start ++ ms) (2 * (s.cfg.tw / 8) - n) t ∧ t.moves = rest ∧
      t.op.Reading P n := by
  obtain ⟨u, hsu, hum, huop⟩ := readsOn_start hready hstart hmoves hkept hP
  rw [← hleft] at huop
  obtain ⟨t, hut, htm, htop⟩ := readsOn_moves (hsu.ready hready) hum
    (by rwa [hsu.live, hsu.shadow]) huop hn (hsu.admits (admits_start hstart hadm)) (hsu.ie ▸ htick)
  have hbytes : 2 * (s.cfg.tw / 8) - left + ms.count .micro = 2 * (s.cfg.tw / 8) - n := by
    obtain ⟨-, -, h⟩ | ⟨-, -, h⟩ := hstart
    all_goals omega
  exact ⟨t, hbytes ▸ hsu.trans hut, htm, htop⟩

end

end

/-! ### An attempt with no tick handler step inside it (R168) -/

section
variable {s : State} {live shadow : Nat}

/-- The bytes read so far are those of one LIVE and one SHADOW. -/
def ReadsBoth (live shadow : Nat) (l sh : ByteAcc) : Prop := l.Reads live ∧ sh.Reads shadow

theorem keptByReads_readsBoth (live shadow : Nat) :
    KeptByReads live shadow (ReadsBoth live shadow) where
  ofLive pick hl h := ⟨h.1.read pick hl, h.2⟩
  ofShadow pick _ hsh h := ⟨h.1, h.2.read pick hsh⟩

theorem start_readsBoth {w : Nat} (hbytes : w % 8 = 0) (hlive : live < 2 ^ w)
    (hshadow : shadow < 2 ^ w) : ReadsBoth live shadow (.start w) (.start w) :=
  ⟨start_reads hbytes hlive, start_reads hbytes hshadow⟩

/-- The last byte of an attempt that has read one LIVE and its SHADOW ends the operation and drives
that LIVE. -/
theorem microStep_succeeds (hwf : s.cfg.wf = true) (hlive : s.ct.live < 2 ^ s.cfg.tw)
    (hshadow : s.ct.shadow = (s.ct.live + 1) % 2 ^ s.cfg.tw)
    (h : s.op.Reading (ReadsBoth s.ct.live s.ct.shadow) 1) :
    microStep s = .next ((s.usePick.withOp .idle).driveRes (zext32 s.ct.live)) := by
  obtain ⟨l, sh, hl, hsh, ⟨hlv, hshv⟩, hmicro⟩ := microStep_decides (keptByReads_readsBoth _ _) h
  have hcons : syncConsistent s.cfg s.ct.live s.ct.shadow = true := by
    rw [hshadow, syncConsistent_shadow_iff hwf hlive hlive]
  rw [hlv.value_eq hl, hshv.value_eq hsh, if_pos hcons] at hmicro
  exact hmicro

end

/-- Settles O26: the attempt reads LIVE and the SHADOW one above it, which the test accepts. -/
theorem undisturbedSyncReadSucceeds : Obligations.UndisturbedSyncReadSucceeds := by
  intro s start ms rest left hready hlive hshadow hstart hadm htick hcount hmoves
  obtain ⟨hbytes, hwhole⟩ := tw_bytes hready.1
  obtain ⟨v, hsv, hvm, hvop⟩ := readsOn_attempt hready hstart hmoves (keptByReads_readsBoth _ _)
    (start_readsBoth hwhole hlive (hshadow ▸ Nat.mod_lt _ (Nat.two_pow_pos _)))
    ((Nat.add_comm _ _).trans hcount) Nat.one_pos hadm htick
  have hlast : microStep (v.beginMove rest) =
      .next (((v.beginMove rest).usePick.withOp .idle).driveRes (zext32 v.ct.live)) := by
    refine microStep_succeeds (hsv.ready hready).1 ?_ ?_ ?_
    · show v.ct.live < 2 ^ v.cfg.tw
      rwa [hsv.live, hsv.cfg]
    · show v.ct.shadow = (v.ct.live + 1) % 2 ^ v.cfg.tw
      rwa [hsv.live, hsv.cfg, hsv.shadow]
    · show v.op.Reading (ReadsBoth v.ct.live v.ct.shadow) 1
      rwa [hsv.live, hsv.shadow]
  have hrun : runSteps (start.length + ms.length + 1) s =
      .next (((v.beginMove rest).usePick.withOp .idle).driveRes (zext32 v.ct.live)) := by
    rw [← List.length_append, runSteps_add hsv.run,
      runSteps_succ ((step_micro (hsv.ready hready) hvm).trans hlast), runSteps_zero]
  have hpicks : v.picks.tail = s.picks.drop (2 * (s.cfg.tw / 8)) := by
    rw [hsv.picks, List.tail_drop, Nat.sub_add_cancel (by omega)]
  refine ⟨_, hrun, ?_⟩
  rw [hsv.live]
  show { v with
    moves := rest, op := .idle, picks := v.picks.tail, out := [.res (zext32 s.ct.live)] } = _
  rw [hpicks, hsv.frame]
  rfl

/-! ### An attempt with one tick handler step inside it (R169) -/

/-- Before the tick: LIVE is being read, and of SHADOW nothing before all of LIVE is. -/
def ReadsBefore (w live : Nat) (l sh : ByteAcc) : Prop :=
  l.Reads live ∧ l.Fits w ∧ (l.left = [] ∨ sh = .start w)

theorem keptByReads_readsBefore (w live shadow : Nat) :
    KeptByReads live shadow (ReadsBefore w live) where
  ofLive pick hl h := ⟨h.1.read pick hl, h.2.1.read _ pick hl, .inr (h.2.2.resolve_left hl)⟩
  ofShadow _ hl _ h := ⟨h.1, h.2.1, .inl hl⟩

theorem start_readsBefore {w live : Nat} (hbytes : w % 8 = 0) (hlive : live < 2 ^ w) :
    ReadsBefore w live (.start w) (.start w) :=
  ⟨start_reads hbytes hlive, start_fits hbytes, .inr rfl⟩

/-- After the tick: either all of LIVE was read before it, or all of SHADOW is read after it. -/
def ReadsAfter (w live shadow' : Nat) (l sh : ByteAcc) : Prop :=
  l.left = [] ∧ l.value = live ∨ l.Fits w ∧ sh.Reads shadow'

theorem keptByReads_readsAfter (w live live' shadow' : Nat) :
    KeptByReads live' shadow' (ReadsAfter w live shadow') where
  ofLive pick hl h := by
    obtain ⟨hleft, -⟩ | ⟨hfits, hsh⟩ := h
    · exact absurd hleft hl
    · exact .inr ⟨hfits.read _ pick hl, hsh⟩
  ofShadow pick _ hsh h := h.imp_right fun h => ⟨h.1, h.2.read pick hsh⟩

theorem ReadsBefore.after {w live shadow' : Nat} {l sh : ByteAcc} (h : ReadsBefore w live l sh)
    (hbytes : w % 8 = 0) (hshadow : shadow' < 2 ^ w) : ReadsAfter w live shadow' l sh := by
  obtain ⟨hreads, hfits, hleft | rfl⟩ := h
  · exact .inl ⟨hleft, hreads.value_eq hleft⟩
  · exact .inr ⟨hfits, start_reads hbytes hshadow⟩

section
variable {s : State} {rest : List Move}

/-- R162 to R165: the tick handler body never raises PULSE. -/
theorem tickBody_pulse_le (s : State) : (tickBody s).ct.pulse ≤ s.ct.pulse := by
  rw [tickBody_eq]
  split
  · split
    · split
      · exact le_rfl
      · exact Nat.zero_le _
    · exact le_rfl
  · exact le_rfl

/-- A tick handler turn, enabled or not, leaves a ready block inside its attempt. -/
theorem step_tickIsr_of_ready (hready : s.Ready) (hmoves : s.moves = .tickIsr :: rest) :
    ∃ t, step s = .next t ∧ t.moves = rest ∧ t.Ready ∧ t.cfg = s.cfg ∧ t.op = s.op ∧
      t.ct.pulse ≤ s.ct.pulse := by
  by_cases hie : s.irq.ie = true ∧ s.irq.pendTick = true
  · have hstep := step_tickIsr hready hmoves hie.1 hie.2
    have hpulse := tickBody_pulse_le (s.beginMove rest)
    obtain ⟨_, _, _, _, _, hbody, -⟩ := tickBody_frame (s.beginMove rest)
    rw [hbody] at hstep hpulse
    exact ⟨_, hstep, rfl, hready, rfl, rfl, hpulse⟩
  · have hnone : s.irq.ie = false ∨ s.irq.pendTick = false := by
      rwa [not_and_or, Bool.not_eq_true, Bool.not_eq_true] at hie
    have hstep := turnsWithNoEnabledStepDoNothing s .tickIsr rest hready hmoves
      (.inr (.inr (.inr ⟨rfl, hnone⟩)))
    exact ⟨_, hstep, rfl, hready, rfl, rfl, le_rfl⟩

/-- R33, R35: what the timer invariant says of LIVE and SHADOW. -/
theorem live_shadow_of_timerInv (hinv : s.TimerInv) :
    s.ct.live < 2 ^ s.cfg.tw ∧ s.ct.shadow = (s.ct.live + 1) % 2 ^ s.cfg.tw := by
  obtain ⟨-, hreload, hle, hshadow, -⟩ := hinv
  exact ⟨hle.trans_lt hreload, hshadow⟩

/-- What the last byte of an attempt with a tick inside it decides: the LIVE before the tick or the
one after it, or a retry. -/
theorem microStep_after_tick {live : Nat} (hinv : s.TimerInv)
    (h : s.op.Reading (ReadsAfter s.cfg.tw live s.ct.shadow) 1) :
    (∃ v, (v = live ∨ v = s.ct.live) ∧
      microStep s = .next ((s.usePick.withOp .idle).driveRes (zext32 v))) ∨
    microStep s = .next (s.usePick.withOp (syncAttemptStart s.cfg)) := by
  obtain ⟨l, sh, -, hsh, hvalues, hmicro⟩ :=
    microStep_decides (keptByReads_readsAfter _ _ s.ct.live _) h
  obtain ⟨hlive, hshadow⟩ := live_shadow_of_timerInv hinv
  by_cases hcons : syncConsistent s.cfg l.value sh.value = true
  · refine .inl ⟨l.value, ?_, hmicro.trans (if_pos hcons)⟩
    obtain ⟨-, hvalue⟩ | ⟨hfits, hreads⟩ := hvalues
    · exact .inl hvalue
    · rw [hreads.value_eq hsh, hshadow,
        syncConsistent_shadow_iff hinv.1 hfits.value_lt hlive] at hcons
      exact .inr hcons
  · exact .inr (hmicro.trans (if_neg hcons))

/-- R7, R11: a TW-bit value fits the result bus. -/
theorem zext32_toNat_of_tw {v : Nat} (hwf : s.cfg.wf = true) (hv : v < 2 ^ s.cfg.tw) :
    (zext32 v).toNat = v := by
  obtain ⟨-, -, -, ⟨-, htw, -⟩, -⟩ := (config_wf_iff s.cfg).1 hwf
  exact zext32_toNat (hv.trans_le (Nat.pow_le_pow_right (by decide) htw))

/-- An attempt with one tick handler turn inside it, up to its last byte: until the turn it reads
the LIVE before it; afterwards SHADOW is read whole, or LIVE was. -/
theorem attempt_across_tick {start ms₁ ms₂ ms₃ : List Move} {left : Nat} (hready : s.Ready)
    (hinv : s.TimerInv) (hstart : s.AttemptStarts start left)
    (hadm : s.Admits (ms₁ ++ (ms₂ ++ ms₃))) (htick₁ : .tickIsr ∉ ms₁) (htick₂ : .tickIsr ∉ ms₂)
    (hcount : 1 + ms₂.count .micro + ms₁.count .micro = left)
    (hmoves : s.moves = start ++ (ms₁ ++ .tickIsr :: (ms₂ ++ rest))) :
    ∃ t, runSteps (start.length + (ms₁ ++ ms₂).length + 1) s = .next t ∧ t.moves = rest ∧
      t.Ready ∧ t.cfg = s.cfg ∧ t.TimerInv ∧ t.Admits ms₃ ∧
      t.op.Reading (ReadsAfter s.cfg.tw s.ct.live t.ct.shadow) 1 := by
  obtain ⟨-, hwhole⟩ := tw_bytes hready.1
  obtain ⟨hlive, -⟩ := live_shadow_of_timerInv hinv
  obtain ⟨u, hsu, hum, huop⟩ := readsOn_attempt hready hstart hmoves
    (keptByReads_readsBefore _ _ _) (start_readsBefore hwhole hlive) hcount (by omega)
    (admits_append_left hadm) (fun _ => htick₁)
  obtain ⟨v, huv, hvm, hvready, hvcfg, hvop, hvpulse⟩ :=
    step_tickIsr_of_ready (hsu.ready hready) hum
  have hvinv : v.TimerInv := everyStepKeepsTheTimerInvariant u v (hsu.timerInv hinv) huv
  have hvadm : v.Admits (ms₂ ++ ms₃) := by
    obtain ⟨hreset, hpulse⟩ := hsu.admits
      (by rw [List.append_assoc]; exact admits_start hstart hadm)
    exact ⟨hreset, by rw [hvcfg]; omega⟩
  rw [hsu.cfg] at hvcfg
  have hshadow : v.ct.shadow < 2 ^ s.cfg.tw := by
    rw [(live_shadow_of_timerInv hvinv).2, hvcfg]
    exact Nat.mod_lt _ (Nat.two_pow_pos _)
  have hvreading : v.op.Reading (ReadsAfter s.cfg.tw s.ct.live v.ct.shadow)
      (1 + ms₂.count .micro) :=
    hvop ▸ huop.mono fun l sh h => h.after hwhole hshadow
  obtain ⟨t, hvt, htm, htop⟩ := readsOn_moves hvready hvm (keptByReads_readsAfter _ _ _ _) hvreading
    Nat.one_pos (admits_append_left hvadm) (fun _ => htick₂)
  have hlen : start.length + (ms₁ ++ ms₂).length + 1 =
      (start ++ ms₁).length + (ms₂.length + 1) := by
    simp only [List.length_append]; omega
  refine ⟨t, ?_, htm, hvt.ready hvready, hvt.cfg.trans hvcfg, hvt.timerInv hvinv, hvt.admits hvadm,
    by rwa [hvt.shadow]⟩
  rw [hlen, runSteps_add hsu.run, runSteps_succ huv, hvt.run]

end

/-- Settles O27: the last byte decides for the LIVE before the tick or the one after it, or for a
retry, which is a new attempt, with no tick inside. -/
theorem syncReadAcrossOneTickIsAnActualValue :
    Obligations.SyncReadAcrossOneTickIsAnActualValue := by
  intro s start ms₁ ms₂ ms₃ rest left hready hinv hstart hadm htick hcount hcount₃ hmoves
  obtain ⟨hlive, -⟩ := live_shadow_of_timerInv hinv
  simp only [List.mem_append, not_or] at htick
  obtain ⟨⟨htick₁, htick₂⟩, htick₃⟩ := htick
  rw [List.append_assoc] at hadm
  rw [List.count_append] at hcount
  obtain ⟨x, hsx, hxm, hxready, hxcfg, hxinv, hxadm, hxop⟩ := attempt_across_tick hready hinv hstart
    hadm htick₁ htick₂ (by omega) hmoves
  obtain ⟨hxlive, hxshadow⟩ := live_shadow_of_timerInv hxinv
  rw [← hxcfg] at hxop
  have hrun : ∀ t, microStep (x.beginMove (ms₃ ++ .micro :: rest)) = .next t →
      runSteps (start.length + (ms₁ ++ ms₂).length + 2) s = .next t := fun t ht =>
    (runSteps_add (k := 1) hsx).trans (runSteps_succ (k := 0) ((step_micro hxready hxm).trans ht))
  obtain ⟨r, hr, hlast⟩ | hlast :=
    microStep_after_tick (s := x.beginMove (ms₃ ++ .micro :: rest)) hxinv hxop
  · have hvalue : (zext32 r).toNat = r := by
      refine zext32_toNat_of_tw hxready.1 ?_
      obtain rfl | rfl := hr
      · rwa [hxcfg]
      · exact hxlive
    exact ⟨_, hrun _ hlast, rfl, .inl ⟨rfl, _, rfl, by rwa [hvalue]⟩⟩
  · obtain ⟨y, hy, hyeq⟩ := undisturbedSyncReadSucceeds
      ((x.beginMove (ms₃ ++ .micro :: rest)).usePick.withOp (syncAttemptStart x.cfg)) [] ms₃ rest _
      hxready hxlive hxshadow (.inr ⟨rfl, rfl, rfl⟩) hxadm (fun _ => htick₃)
      (hxcfg ▸ hcount₃) rfl
    rw [List.length_nil, Nat.zero_add] at hy
    exact ⟨_, hrun _ hlast, rfl, .inr ⟨congrArg syncAttemptStart hxcfg, rfl, y, hy, by rw [hyeq],
      by rw [hyeq], by rw [hyeq]; rfl, by rw [hyeq]; rfl⟩⟩

end Sys2Proof.Machine
end

section
/-! Unending runs (spec/00_scope.md R12), and their handlers under weak fairness
(spec/42_counter_timer.md R152): a pending handler of an enabled block stays enabled until its turn,
so that turn comes, and it finds what it waited for. -/

namespace Sys2Proof.Machine

open Sys2Proof

/-! ### Moments of a run -/

section
variable {p : Nat → Prop} {j k : Nat}

theorem exists_first (h : ∃ j, k ≤ j ∧ p j) :
    ∃ j, k ≤ j ∧ p j ∧ ∀ i, k ≤ i → i < j → ¬ p i := by
  classical
  obtain ⟨hle, hp⟩ := Nat.find_spec h
  exact ⟨Nat.find h, hle, hp, fun i hki hi hpi => Nat.find_min h hi ⟨hki, hpi⟩⟩

theorem holds_upTo (hk : p k) (hnext : ∀ i, k ≤ i → i < j → p i → p (i + 1)) {i : Nat}
    (hki : k ≤ i) (hij : i ≤ j) : p i := by
  induction i, hki using Nat.le_induction with
  | base => exact hk
  | succ i hki ih => exact hnext i hki hij (ih (by omega))

end

section
variable {σ : Nat → State} {ms : Nat → Move} {j k : Nat}

/-! ### The steps of a run -/

/-- A fault would stop the run (R251), and so would a configuration that breaks R7 (R8). -/
theorem IsRun.wf_and_no_fault (hrun : IsRun σ ms) (j : Nat) :
    (σ j).cfg.wf = true ∧ (σ j).fault = none := by
  obtain ⟨ps, hstep⟩ := hrun j
  obtain ⟨hwf, hfault, -⟩ := step_next.1 hstep
  exact ⟨hwf, hfault⟩

theorem IsRun.ready (hrun : IsRun σ ms) (hhalted : (σ j).status.halted = false) (m : Move)
    (ps : List Nat) : ((σ j).offer m ps).Ready := by
  obtain ⟨hwf, hfault⟩ := hrun.wf_and_no_fault j
  exact ⟨hwf, hfault, hhalted⟩

theorem IsRun.cfg_succ (hrun : IsRun σ ms) (j : Nat) : (σ (j + 1)).cfg = (σ j).cfg := by
  obtain ⟨ps, hstep⟩ := hrun j
  exact step_keeps_cfg (s := (σ j).offer (ms j) ps) hstep

theorem IsRun.cfg_eq (hrun : IsRun σ ms) (hkj : k ≤ j) : (σ j).cfg = (σ k).cfg :=
  holds_upTo (p := fun i => (σ i).cfg = (σ k).cfg) rfl
    (fun i _ _ h => (hrun.cfg_succ i).trans h) hkj le_rfl

theorem IsRun.timerInv (hrun : IsRun σ ms) (hinv : (σ k).TimerInv) (hkj : k ≤ j) :
    (σ j).TimerInv :=
  holds_upTo (p := fun i => (σ i).TimerInv) hinv
    (fun i _ _ h => by
      obtain ⟨ps, hstep⟩ := hrun i
      exact everyStepKeepsTheTimerInvariant ((σ i).offer (ms i) ps) _ h hstep)
    hkj le_rfl

/-- A step of a run is one turn of its move. -/
theorem IsRun.turn (hrun : IsRun σ ms) (j : Nat) :
    ∃ ps, TurnEffect (ms j) (((σ j).offer (ms j) ps).beginMove []) (σ (j + 1)) := by
  obtain ⟨ps, hstep⟩ := hrun j
  obtain ⟨hm, -⟩ | ⟨m, rest, hm, hturn⟩ := step_turn hstep
  · cases hm
  · cases hm
    exact ⟨ps, hturn⟩

theorem IsRun.micro (hrun : IsRun σ ms) (hhalted : (σ j).status.halted = false)
    (hm : ms j = .micro) :
    ∃ ps, microStep (((σ j).offer .micro ps).beginMove []) = .next (σ (j + 1)) := by
  obtain ⟨ps, hstep⟩ := hrun j
  rw [hm] at hstep
  exact ⟨ps, (step_micro (hrun.ready hhalted _ _) rfl).symm.trans hstep⟩

/-! ### Weak fairness (R152) -/

/-- Under weak fairness a handler takes its turn where every step that is not its turn keeps a
condition under which it is enabled. -/
theorem WeaklyFair.turn (hfair : WeaklyFair σ ms) {h : Handler} {p : Nat → Prop} (hk : p k)
    (hnext : ∀ i, k ≤ i → ms i ≠ h.move → p i → p (i + 1))
    (henabled : ∀ i, k ≤ i → p i → h.enabled (σ i)) :
    ∃ j, k ≤ j ∧ ms j = h.move ∧ ∀ i, k ≤ i → i ≤ j → p i := by
  have hmove : ∃ j, k ≤ j ∧ ms j = h.move := by
    by_contra hnever
    push Not at hnever
    have hp : ∀ i, k ≤ i → p i := fun i hki =>
      holds_upTo hk (fun i hki _ => hnext i hki (hnever i hki)) hki le_rfl
    obtain ⟨j, hkj, hj⟩ := hfair h k fun i hki => henabled i hki (hp i hki)
    exact hnever j hkj hj
  obtain ⟨j, hkj, hj, hfirst⟩ := exists_first hmove
  exact ⟨j, hkj, hj, fun i hki hij =>
    holds_upTo hk (fun i hki hlt => hnext i hki (hfirst i hki hlt)) hki hij⟩

end

/-! ### What the other turns leave of a pending handler -/

section
variable {s t : State} {m : Move}

/-- No operation takes a pending edge away. -/
theorem ExecEffect.pendEdge_eq {i : Instr} (h : ExecEffect i s t) :
    t.irq.pendEdge = s.irq.pendEdge := by
  cases h with
  | tmrReadSync _ _ hsync => obtain ⟨_, _, -, rfl⟩ := syncStep_frame hsync; rfl
  | _ => rfl

/-- Only the edge handler takes a pending edge away, RESET aside. -/
theorem TurnEffect.keeps_pendEdge (h : TurnEffect m s t) (hreset : m ≠ .reset)
    (hisr : m ≠ .edgeIsr) (hpend : s.irq.pendEdge = true) : t.irq.pendEdge = true := by
  cases h with
  | instr _ _ _ _ _ _ hexec => exact hexec.pendEdge_eq.trans hpend
  | sync _ _ _ _ _ hsync => obtain ⟨_, _, -, rfl⟩ := syncStep_frame hsync; exact hpend
  | stats _ _ _ _ hstats => obtain ⟨_, _, _, _, _, rfl⟩ := statsStep_frame hstats; exact hpend
  | tickHandler =>
    obtain ⟨_, _, _, _, _, hbody, -⟩ := tickBody_frame (s.setIe false)
    rw [hbody]
    exact hpend
  | edge => rfl
  | edgeHandler => exact absurd rfl hisr
  | reset => exact absurd rfl hreset
  | _ => exact hpend

/-- s and t have the same timer, and a tick pending in s is pending in t. -/
abbrev SameTimer (s t : State) : Prop :=
  t.ct = { s.ct with pulse := t.ct.pulse } ∧ (s.irq.pendTick = true → t.irq.pendTick = true)

theorem SameTimer.trans {u : State} (h : SameTimer s t) (h' : SameTimer t u) : SameTimer s u :=
  ⟨h'.1.trans (by rw [h.1]), h'.2 ∘ h.2⟩

/-- An operation leaves a timer alone that is not idle: TMR_ARM then faults (R161). -/
theorem ExecEffect.sameTimer {i : Instr} (h : ExecEffect i s t) (hbusy : s.ct.tmode ≠ .idle) :
    SameTimer s t := by
  cases h with
  | tmrArm _ _ _ hidle => exact absurd hidle hbusy
  | tmrReadSync _ _ hsync => obtain ⟨_, _, -, rfl⟩ := syncStep_frame hsync; exact ⟨rfl, id⟩
  | _ => exact ⟨rfl, id⟩

/-- Only the tick handler moves a timer that is not idle, RESET aside. -/
theorem TurnEffect.sameTimer (h : TurnEffect m s t) (hreset : m ≠ .reset) (hisr : m ≠ .tickIsr)
    (hbusy : s.ct.tmode ≠ .idle) : SameTimer s t := by
  cases h with
  | instr _ _ _ _ _ _ hexec => exact hexec.sameTimer hbusy
  | sync _ _ _ _ _ hsync => obtain ⟨_, _, -, rfl⟩ := syncStep_frame hsync; exact ⟨rfl, id⟩
  | stats _ _ _ _ hstats => obtain ⟨_, _, _, _, _, rfl⟩ := statsStep_frame hstats; exact ⟨rfl, id⟩
  | tickHandler => exact absurd rfl hisr
  | tick => exact ⟨rfl, fun _ => rfl⟩
  | reset => exact absurd rfl hreset
  | _ => exact ⟨rfl, id⟩

/-- R162 to R164: what the tick handler body makes of a running countdown. -/
theorem tickBody_of_running (hwf : s.cfg.wf = true) (hrun : s.ct.tmode.running = true)
    (hlive : 1 ≤ s.ct.live) (hlt : s.ct.live < 2 ^ s.cfg.tw) :
    (tickBody s).irq.pendTick = false ∧ (tickBody s).ct.live =
      if s.ct.live = 1 ∧ s.ct.tmode = .interval then s.ct.reload else s.ct.live - 1 := by
  by_cases hone : s.ct.live = 1
  · cases hmode : s.ct.tmode with
    | total =>
      rw [tickBody_finishes (tw_pos hwf) hmode hone, if_neg (by simp), hone]
      exact ⟨rfl, rfl⟩
    | interval =>
      rw [tickBody_rotates (tw_pos hwf) hmode hone, if_pos ⟨hone, rfl⟩]
      exact ⟨rfl, rfl⟩
    | idle | stopped => rw [hmode] at hrun; cases hrun
  · rw [tickBody_counts hrun (by omega) hlt, if_neg fun h => hone h.1]
    exact ⟨rfl, rfl⟩

end

/-! ### Handlers of a weakly fair run -/

section
variable {σ : Nat → State} {ms : Nat → Move} {k : Nat}

/-- An edge that is pending is counted in the next turn of the edge handler. -/
theorem edge_is_counted (hrun : IsRun σ ms) (hfair : WeaklyFair σ ms)
    (hopen : ∀ j, k ≤ j → (σ j).irq.ie = true ∧ (σ j).status.halted = false ∧ ms j ≠ .reset)
    (hpend : (σ k).irq.pendEdge = true) :
    ∃ j, k ≤ j ∧ ms j = .edgeIsr ∧ (∀ i, k ≤ i → i ≤ j → (σ i).irq.pendEdge = true) ∧
      (σ (j + 1)).irq.pendEdge = false ∧ (σ (j + 1)).ct.pulse = (σ j).ct.pulse + 1 ∧
      (σ (j + 1)).out = [.edgeFeedback] := by
  have hnext : ∀ i, k ≤ i → ms i ≠ Handler.edge.move → (σ i).irq.pendEdge = true →
      (σ (i + 1)).irq.pendEdge = true := by
    intro i hki hisr hi
    obtain ⟨ps, hturn⟩ := hrun.turn i
    obtain ⟨-, -, hreset⟩ := hopen i hki
    exact hturn.keeps_pendEdge hreset hisr hi
  have henabled : ∀ i, k ≤ i → (σ i).irq.pendEdge = true → Handler.edge.enabled (σ i) := by
    intro i hki hi
    obtain ⟨hie, hhalted, -⟩ := hopen i hki
    exact ⟨by simp [State.edgeHandlerEnabled, hie, hi], hhalted, (hrun.wf_and_no_fault i).2⟩
  obtain ⟨j, hkj, hj, hwait⟩ := hfair.turn (h := .edge) hpend hnext henabled
  obtain ⟨hie, hhalted, -⟩ := hopen j hkj
  obtain ⟨ps, hstep⟩ := hrun j
  rw [show ms j = .edgeIsr from hj] at hstep
  have hready := hrun.ready hhalted .edgeIsr ps
  refine ⟨j, hkj, hj, hwait, ?_⟩
  by_cases hlast : (σ j).ct.pulse = 2 ^ (σ j).cfg.pcw - 1
  · rw [step_edgeIsr_overflows hready rfl hie (hwait j hkj le_rfl) hlast, raiseFault_next] at hstep
    have hnone := (hrun.wf_and_no_fault (j + 1)).2
    rw [hstep] at hnone
    cases hnone
  · rw [step_edgeIsr_counts hready rfl hie (hwait j hkj le_rfl) hlast, next_inj] at hstep
    rw [← hstep]
    exact ⟨rfl, rfl, rfl⟩

/-- A tick that is pending for a running timer counts in the next turn of the tick handler. -/
theorem tick_is_counted (hrun : IsRun σ ms) (hfair : WeaklyFair σ ms)
    (hopen : ∀ j, k ≤ j → (σ j).irq.ie = true ∧ (σ j).status.halted = false ∧ ms j ≠ .reset)
    (hinv : (σ k).TimerInv) (hmode : (σ k).ct.tmode.running = true)
    (hpend : (σ k).irq.pendTick = true) :
    ∃ j, k ≤ j ∧ ms j = .tickIsr ∧
      (∀ i, k ≤ i → i ≤ j → (σ i).irq.pendTick = true ∧ (σ i).ct.live = (σ k).ct.live) ∧
      (σ (j + 1)).irq.pendTick = false ∧
      (σ (j + 1)).ct.live =
        if (σ k).ct.live = 1 ∧ (σ k).ct.tmode = .interval then (σ k).ct.reload
        else (σ k).ct.live - 1 := by
  have hbusy : (σ k).ct.tmode ≠ .idle := by intro h; rw [h] at hmode; cases hmode
  have hnext : ∀ i, k ≤ i → ms i ≠ Handler.tick.move → SameTimer (σ k) (σ i) →
      SameTimer (σ k) (σ (i + 1)) := by
    intro i hki hisr hi
    obtain ⟨ps, hturn⟩ := hrun.turn i
    obtain ⟨-, -, hreset⟩ := hopen i hki
    have hbusy' : (σ i).ct.tmode ≠ .idle := by rw [hi.1]; exact hbusy
    exact hi.trans (hturn.sameTimer hreset hisr hbusy')
  have henabled : ∀ i, k ≤ i → SameTimer (σ k) (σ i) → Handler.tick.enabled (σ i) := by
    intro i hki hi
    obtain ⟨hie, hhalted, -⟩ := hopen i hki
    exact ⟨by simp [State.tickHandlerEnabled, hie, hi.2 hpend], hhalted,
      (hrun.wf_and_no_fault i).2⟩
  obtain ⟨j, hkj, hj, hwait⟩ := hfair.turn (h := .tick) ⟨rfl, id⟩ hnext henabled
  obtain ⟨hie, hhalted, -⟩ := hopen j hkj
  obtain ⟨ps, hstep⟩ := hrun j
  rw [show ms j = .tickIsr from hj] at hstep
  obtain ⟨htimer, hpendj⟩ := hwait j hkj le_rfl
  have hbody := step_tickIsr (hrun.ready hhalted .tickIsr ps) rfl hie (hpendj hpend)
  rw [hstep, next_inj] at hbody
  refine ⟨j, hkj, hj, fun i hki hij => ?_, ?_⟩
  · obtain ⟨htimeri, hpendi⟩ := hwait i hki hij
    exact ⟨hpendi hpend, by rw [htimeri]⟩
  · have hinvj := hrun.timerInv hinv hkj
    obtain ⟨hlt, -⟩ := live_shadow_of_timerInv hinvj
    have hmodej : (σ j).ct.tmode.running = true := by rw [htimer]; exact hmode
    obtain ⟨hwf, -, -, -, hrunning, -⟩ := hinvj
    have hcount := tickBody_of_running (s := ((σ j).offer .tickIsr ps).beginMove []) hwf hmodej
      (hrunning.1 hmodej) hlt
    rw [← hbody, State.beginMove_ct, State.offer_ct, htimer] at hcount
    exact hcount

end

/-- Settles O19, by the turn that weak fairness gives each handler. -/
theorem fairRunsServeTheHandlers : Obligations.FairRunsServeTheHandlers :=
  fun _ _ _ hrun hfair hopen =>
    ⟨edge_is_counted hrun hfair hopen, tick_is_counted hrun hfair hopen⟩

end Sys2Proof.Machine
end

section
/-! TMR_READ_SYNC in an unending run (spec/42_counter_timer.md R167, R168): an operation that never
ended would make attempt after attempt, each with a tick handler step inside, which TICK_SPARSE
excludes. -/

namespace Sys2Proof.Machine

open Sys2Proof

/-- OPSTATE is inside TMR_READ_SYNC. -/
abbrev OpState.InSync (o : OpState) : Prop := ∃ l sh, o = .tmrReadSync l sh

section
variable {o : OpState} {P : ByteAcc → ByteAcc → Prop} {n : Nat}

theorem OpState.Reading.ne_start {c : Config} (h : o.Reading P n) (hn : n < 2 * (c.tw / 8)) :
    o ≠ syncAttemptStart c := by
  rintro rfl
  obtain ⟨l, sh, ho, -, hlen, -⟩ := h
  cases ho
  simp [ByteAcc.start] at hlen
  omega

theorem OpState.InSync.ne_idle (h : o.InSync) : o ≠ .idle := by
  obtain ⟨l, sh, rfl⟩ := h
  exact nofun

theorem OpState.Reading.pos (h : o.Reading P n) : 0 < n := by
  obtain ⟨l, sh, -, hsh, hlen, -⟩ := h
  have := List.length_pos_iff.2 hsh
  omega

/-- s is inside an attempt with n bytes still to read, in which the bytes read so far are those of
its present LIVE and SHADOW. -/
abbrev State.ReadsNow (s : State) (n : Nat) : Prop :=
  s.op.Reading (ReadsBoth s.ct.live s.ct.shadow) n

end

/-! ### A turn during the operation -/

section
variable {s t : State} {m : Move}

/-- While TMR_READ_SYNC is in progress only a RESET changes the status. -/
theorem TurnEffect.status_of_inSync (h : TurnEffect m s t) (ho : s.op.InSync)
    (hreset : m ≠ .reset) : t.status = s.status := by
  cases h with
  | instr _ _ _ _ hidle => exact absurd hidle ho.ne_idle
  | sync _ _ _ _ _ hsync => obtain ⟨_, _, -, rfl⟩ := syncStep_frame hsync; rfl
  | stats _ _ _ _ hstats => obtain ⟨_, _, _, _, _, rfl⟩ := statsStep_frame hstats; rfl
  | tickHandler =>
    obtain ⟨_, _, _, _, _, hbody, -⟩ := tickBody_frame (s.setIe false)
    rw [hbody]
    rfl
  | reset => exact absurd rfl hreset
  | _ => rfl

/-- A turn of another agent leaves the operation where it is (R45), and LIVE and SHADOW too, unless
it is a tick handler step. -/
theorem TurnEffect.other_in_sync (h : TurnEffect m s t) (ho : s.op.InSync) (hreset : m ≠ .reset)
    (hmicro : m ≠ .micro) : t.op = s.op ∧
      (¬ (m = .tickIsr ∧ s.irq.ie = true ∧ s.irq.pendTick = true) →
        t.ct.live = s.ct.live ∧ t.ct.shadow = s.ct.shadow) := by
  cases h with
  | instr _ _ _ _ hidle => exact absurd hidle ho.ne_idle
  | sync | stats => exact absurd rfl hmicro
  | tickHandler _ hie hpend =>
    refine ⟨?_, fun hno => absurd ⟨rfl, hie, hpend⟩ hno⟩
    obtain ⟨_, _, _, _, _, hbody, -⟩ := tickBody_frame (s.setIe false)
    rw [hbody]
    rfl
  | reset => exact absurd rfl hreset
  | _ => exact ⟨rfl, fun _ => ⟨rfl, rfl⟩⟩

end

section
variable {σ : Nat → State} {ms : Nat → Move} {i j k : Nat}

theorem IsRun.halted_succ (hrun : IsRun σ ms) (ho : (σ j).op.InSync) (hreset : ms j ≠ .reset)
    (hhalted : (σ j).status.halted = false) : (σ (j + 1)).status.halted = false := by
  obtain ⟨ps, hturn⟩ := hrun.turn j
  rw [hturn.status_of_inSync ho hreset]
  exact hhalted

theorem IsRun.other_in_sync (hrun : IsRun σ ms) (ho : (σ j).op.InSync) (hreset : ms j ≠ .reset)
    (hmicro : ms j ≠ .micro) : (σ (j + 1)).op = (σ j).op ∧
      (¬ (ms j = .tickIsr ∧ (σ j).irq.ie = true ∧ (σ j).irq.pendTick = true) →
        (σ (j + 1)).ct.live = (σ j).ct.live ∧ (σ (j + 1)).ct.shadow = (σ j).ct.shadow) := by
  obtain ⟨ps, hturn⟩ := hrun.turn j
  exact hturn.other_in_sync ho hreset hmicro

/-! ### An operation that never ends -/

/-- From k on the run is inside TMR_READ_SYNC for ever, although its micro-steps keep being taken.
-/
structure EndlessSync (σ : Nat → State) (ms : Nat → Move) (k : Nat) : Prop where
  run : IsRun σ ms
  timer : ∀ j, k ≤ j → (σ j).TimerInv
  running : ∀ j, k ≤ j → (σ j).status.halted = false
  noReset : ∀ j, k ≤ j → ms j ≠ .reset
  micros : ∀ j, k ≤ j → ∃ i, j ≤ i ∧ ms i = .micro
  inSync : ∀ j, k ≤ j → (σ j).op.InSync

/-- The next micro-step finds the operation where it is now. -/
theorem EndlessSync.next_micro (h : EndlessSync σ ms k) (hkj : k ≤ j) :
    ∃ i, j ≤ i ∧ ms i = .micro ∧ (σ i).op = (σ j).op := by
  obtain ⟨i, hji, hi, hfirst⟩ := exists_first (h.micros j hkj)
  refine ⟨i, hji, hi, holds_upTo (p := fun i => (σ i).op = (σ j).op) rfl ?_ hji le_rfl⟩
  intro i' hji' hlt hop
  have hki' := hkj.trans hji'
  obtain ⟨hsame, -⟩ := h.run.other_in_sync (h.inSync i' hki') (h.noReset i' hki')
    (hfirst i' hji' hlt)
  exact hsame.trans hop

/-- Move i is the micro-step that decides an attempt for a retry. -/
abbrev IsRetry (σ : Nat → State) (ms : Nat → Move) (i : Nat) : Prop :=
  ms i = .micro ∧ (σ (i + 1)).op = syncAttemptStart (σ (i + 1)).cfg

/-- Every attempt of an endless operation ends with a retry, because each micro-step before it
leaves one byte less to read. -/
theorem EndlessSync.retries (h : EndlessSync σ ms k) (hkj : k ≤ j) :
    ∃ i, j ≤ i ∧ IsRetry σ ms i := by
  obtain ⟨l, sh, ho⟩ := h.inSync j hkj
  induction hn : l.left.length + sh.left.length using Nat.strong_induction_on
    generalizing j l sh with
  | _ n ih =>
    obtain ⟨i, hji, hi, hop⟩ := h.next_micro hkj
    have hki := hkj.trans hji
    obtain ⟨ps, hmicro⟩ := h.run.micro (h.running i hki) hi
    rw [microStep_sync (s := ((σ i).offer .micro ps).beginMove []) (hop.trans ho)] at hmicro
    have later : ∀ l' sh', (σ (i + 1)).op = .tmrReadSync l' sh' →
        l'.left.length + sh'.left.length < n → ∃ i, j ≤ i ∧ IsRetry σ ms i := by
      intro l' sh' ho' hlt
      obtain ⟨r, hir, hr⟩ := ih _ hlt (Nat.le_succ_of_le hki) l' sh' ho' rfl
      exact ⟨r, by omega, hr⟩
    obtain ⟨hl, ht⟩ | ⟨hl, hsh, ht⟩ | ⟨-, -, -, ht⟩ | ⟨-, -, -, ht⟩ := syncStep_next hmicro
    · have hpos := List.length_pos_iff.2 hl
      refine later _ _ (by rw [ht]; rfl) ?_
      rw [l.read_left_length _ _ hl]
      omega
    · have hleft : sh.left ≠ [] := by
        intro hnil
        exact hsh (by simp [ByteAcc.read, hnil])
      have hpos := List.length_pos_iff.2 hleft
      refine later _ _ (by rw [ht]; rfl) ?_
      rw [sh.read_left_length _ _ hleft]
      omega
    · refine ⟨i, hji, hi, ?_⟩
      rw [h.run.cfg_succ i, ht]
      rfl
    · exact absurd (by rw [ht]; rfl) (h.inSync (i + 1) (by omega)).ne_idle

/-- In an endless operation no micro-step reads the last byte of an attempt at one LIVE and its
SHADOW, because that attempt would succeed. -/
theorem EndlessSync.micro_readsNow (h : EndlessSync σ ms k) (hki : k ≤ i) (hi : ms i = .micro)
    {n : Nat} (hreads : (σ i).ReadsNow n) : (σ (i + 1)).ReadsNow (n - 1) := by
  obtain ⟨ps, hmicro⟩ := h.run.micro (h.running i hki) hi
  obtain ⟨n, rfl⟩ := Nat.exists_eq_add_of_lt hreads.pos
  cases n with
  | zero =>
    obtain ⟨hlive, hshadow⟩ := live_shadow_of_timerInv (h.timer i hki)
    rw [microStep_succeeds (s := ((σ i).offer .micro ps).beginMove []) (h.timer i hki).1 hlive
      hshadow hreads, next_inj] at hmicro
    exact absurd (by rw [← hmicro]; rfl) (h.inSync (i + 1) (by omega)).ne_idle
  | succ n =>
    obtain ⟨o, ho, hnext⟩ := microStep_reads (s := ((σ i).offer .micro ps).beginMove [])
      (n := 0 + (n + 1)) (keptByReads_readsBoth _ _) hreads (by omega)
    rw [hnext, next_inj] at hmicro
    rw [← hmicro]
    simpa [State.ReadsNow] using ho

/-- The start of an attempt has read nothing yet, of any LIVE and SHADOW. -/
theorem EndlessSync.start_readsNow (h : EndlessSync σ ms k) (hki : k ≤ i)
    (hop : (σ i).op = syncAttemptStart (σ i).cfg) :
    (σ i).ReadsNow (2 * ((σ i).cfg.tw / 8)) := by
  obtain ⟨hlive, hshadow⟩ := live_shadow_of_timerInv (h.timer i hki)
  obtain ⟨-, hwhole⟩ := tw_bytes (h.timer i hki).1
  unfold State.ReadsNow
  rw [hop]
  exact syncAttemptStart_reading (h.timer i hki).1
    (start_readsBoth hwhole hlive (hshadow ▸ Nat.mod_lt _ (Nat.two_pow_pos _)))

/-- So the first micro-step of an attempt leaves the start behind. -/
theorem EndlessSync.readsNow_of_begun (h : EndlessSync σ ms k) (hki : k ≤ i) (hi : ms i = .micro)
    (hop : (σ i).op = syncAttemptStart (σ i).cfg) :
    ∃ n < 2 * ((σ i).cfg.tw / 8), (σ (i + 1)).ReadsNow n := by
  obtain ⟨hbytes, -⟩ := tw_bytes (h.timer i hki).1
  exact ⟨_, by omega, h.micro_readsNow hki hi (h.start_readsNow hki hop)⟩

/-- Between two retries no state is the start of an attempt, once the first byte is read. -/
theorem EndlessSync.ne_start_succ (h : EndlessSync σ ms k) (hki : k ≤ i) (hno : ¬ IsRetry σ ms i)
    (hne : (σ i).op ≠ syncAttemptStart (σ i).cfg) :
    (σ (i + 1)).op ≠ syncAttemptStart (σ (i + 1)).cfg := by
  intro hnext
  have hmicro : ms i ≠ .micro := fun hi => hno ⟨hi, hnext⟩
  obtain ⟨hsame, -⟩ := h.run.other_in_sync (h.inSync i hki) (h.noReset i hki) hmicro
  rw [hsame, h.run.cfg_succ i] at hnext
  exact hne hnext

/-- An endless operation makes attempt after attempt: after each retry the next one begins, and ends
with the next retry. -/
theorem EndlessSync.attempts (h : EndlessSync σ ms k) (hkj : k ≤ j) :
    ∃ a b, j ≤ a ∧ IsAttempt σ ms a b := by
  obtain ⟨r, hjr, -, hretried⟩ := h.retries hkj
  obtain ⟨a, hra, ha, hop⟩ := h.next_micro (j := r + 1) (by omega)
  have hka : k ≤ a := by omega
  have hstart : (σ a).op = syncAttemptStart (σ a).cfg := by rw [hop, hretried, h.run.cfg_eq hra]
  obtain ⟨n, hn, hreads⟩ := h.readsNow_of_begun hka ha hstart
  have hbegun : (σ (a + 1)).op ≠ syncAttemptStart (σ (a + 1)).cfg :=
    hreads.ne_start (by rwa [h.run.cfg_succ a])
  obtain ⟨b, hab, ⟨hb, hretry⟩, hfirst⟩ := exists_first (h.retries (j := a + 1) (by omega))
  have hinside : ∀ i, a + 1 ≤ i → i ≤ b → (σ i).op ≠ syncAttemptStart (σ i).cfg := fun i hai hib =>
    holds_upTo (p := fun i => (σ i).op ≠ syncAttemptStart (σ i).cfg) hbegun
      (fun i hai hib => h.ne_start_succ (by omega) (hfirst i hai hib)) hai hib
  exact ⟨a, b, by omega, hab,
    ⟨(h.inSync (a + 1) (by omega)).ne_idle, h.running a hka, .inr ⟨ha, hstart⟩⟩,
    fun i hai hib => ⟨h.inSync i (by omega), hinside i hai hib⟩, hb, .inr hretry⟩

/-- A turn of another agent without a tick handler step keeps the values that an attempt is reading.
-/
theorem EndlessSync.other_readsNow (h : EndlessSync σ ms k) (hki : k ≤ i) (hi : ms i ≠ .micro)
    (hno : ¬ (ms i = .tickIsr ∧ Handler.tick.enabled (σ i))) {n : Nat}
    (hreads : (σ i).ReadsNow n) : (σ (i + 1)).ReadsNow n := by
  obtain ⟨hsame, hct⟩ := h.run.other_in_sync (h.inSync i hki) (h.noReset i hki) hi
  obtain ⟨hlive, hshadow⟩ := hct fun ⟨hisr, hie, hpend⟩ => hno ⟨hisr,
    by simp [State.tickHandlerEnabled, hie, hpend], h.running i hki, (h.run.wf_and_no_fault i).2⟩
  unfold State.ReadsNow
  rwa [hsame, hlive, hshadow]

/-- Every attempt of an endless operation has a tick handler step inside it: without one it would
read one LIVE and its SHADOW, and its last byte would not be its last. -/
theorem EndlessSync.disturbed {a b : Nat} (h : EndlessSync σ ms k) (hka : k ≤ a)
    (hattempt : IsAttempt σ ms a b) : TickInside σ ms a b := by
  obtain ⟨hab, ⟨-, -, hbegin⟩, -, hb, hend⟩ := hattempt
  by_contra hno
  obtain ⟨-, hidle⟩ | ⟨ha, hstart⟩ := hbegin
  · exact (h.inSync a hka).ne_idle hidle
  have hnext : ∀ i, a + 1 ≤ i → i < b → (∃ n < 2 * ((σ a).cfg.tw / 8), (σ i).ReadsNow n) →
      ∃ n < 2 * ((σ a).cfg.tw / 8), (σ (i + 1)).ReadsNow n := by
    rintro i hai hib ⟨n, hn, hreads⟩
    by_cases hi : ms i = .micro
    · exact ⟨_, by omega, h.micro_readsNow (by omega) hi hreads⟩
    · exact ⟨n, hn, h.other_readsNow (by omega) hi (fun ⟨hisr, hen⟩ => hno ⟨i, hai, hib, hisr, hen⟩)
        hreads⟩
  obtain ⟨n, hn, hreads⟩ := holds_upTo
    (p := fun i => ∃ n < 2 * ((σ a).cfg.tw / 8), (σ i).ReadsNow n)
    (h.readsNow_of_begun hka ha hstart) hnext hab le_rfl
  have hlast : (σ (b + 1)).ReadsNow (n - 1) := h.micro_readsNow (by omega) hb hreads
  obtain hidle | hretry := hend
  · exact (h.inSync (b + 1) (by omega)).ne_idle hidle
  · exact hlast.ne_start (by rw [h.run.cfg_eq (by omega : a ≤ b + 1)]; omega) hretry

/-- R168: TICK_SPARSE excludes an operation that never ends. -/
theorem EndlessSync.not_tickSparse (h : EndlessSync σ ms k) : ¬ TickSparse σ ms := by
  intro hsparse
  obtain ⟨a, b, hka, hattempt, hno⟩ := hsparse k (fun j hkj => (h.inSync j hkj).ne_idle)
    fun j hkj => h.attempts hkj
  exact hno (h.disturbed hka hattempt)

/-- The step that leaves TMR_READ_SYNC without a RESET is the micro-step that drives its result. -/
theorem IsRun.result_of_leaving (hrun : IsRun σ ms) (ho : (σ j).op.InSync)
    (hhalted : (σ j).status.halted = false) (hreset : ms j ≠ .reset)
    (hleft : ¬ (σ (j + 1)).op.InSync) :
    ms j = .micro ∧ (σ (j + 1)).op = .idle ∧ ∃ v, (σ (j + 1)).out = [.res v] := by
  have hj : ms j = .micro := by
    by_contra hne
    obtain ⟨hsame, -⟩ := hrun.other_in_sync ho hreset hne
    exact hleft (hsame ▸ ho)
  obtain ⟨l, sh, hop⟩ := ho
  obtain ⟨ps, hmicro⟩ := hrun.micro hhalted hj
  rw [microStep_sync (s := ((σ j).offer .micro ps).beginMove []) hop] at hmicro
  refine ⟨hj, ?_⟩
  obtain ⟨-, ht⟩ | ⟨-, -, ht⟩ | ⟨-, -, -, ht⟩ | ⟨-, -, -, ht⟩ := syncStep_next hmicro
  · exact absurd ⟨_, _, by rw [ht]; rfl⟩ hleft
  · exact absurd ⟨_, _, by rw [ht]; rfl⟩ hleft
  · exact absurd ⟨_, _, by rw [ht]; rfl⟩ hleft
  · rw [ht]
    exact ⟨rfl, _, rfl⟩

end

/-- Settles O28: the operation is left at some step, or it is endless; and the first step that
leaves it drives its result. -/
theorem sparseTicksEndTheSyncRead : Obligations.SparseTicksEndTheSyncRead := by
  intro σ ms k hrun hsparse hinv hhalted hsync hreset hmicros
  have hrunning : ∀ {j}, (∀ i, k ≤ i → i < j → (σ i).op.InSync) → ∀ i, k ≤ i → i ≤ j →
      (σ i).status.halted = false := fun hin i hki hij =>
    holds_upTo (p := fun i => (σ i).status.halted = false) hhalted
      (fun i hki hij => hrun.halted_succ (hin i hki hij) (hreset i hki)) hki hij
  by_cases hleaves : ∃ j, k ≤ j ∧ ¬ (σ j).op.InSync
  · obtain ⟨j, hkj, hout, hfirst⟩ := exists_first hleaves
    obtain ⟨d, rfl⟩ := Nat.exists_eq_add_of_lt (hkj.lt_of_ne (by rintro rfl; exact hout hsync))
    have hin : ∀ i, k ≤ i → i ≤ k + d → (σ i).op.InSync := fun i hki hij =>
      not_not.1 (hfirst i hki (by omega))
    have hkd : k ≤ k + d := Nat.le_add_right k d
    have hrund := hrunning (fun i hki hlt => hin i hki hlt.le) _ hkd le_rfl
    exact ⟨_, hkd, hin, hrun.result_of_leaving (hin _ hkd le_rfl) hrund (hreset _ hkd) hout⟩
  · push Not at hleaves
    have hendless : EndlessSync σ ms k :=
      ⟨hrun, fun j hkj => hrun.timerInv hinv hkj,
        fun j hkj => hrunning (fun i hki _ => hleaves i hki) j hkj le_rfl, hreset, hmicros, hleaves⟩
    exact absurd hsparse hendless.not_tickSparse

end Sys2Proof.Machine
end

section
/-! The one-step operations of the ring-buffer statistics unit (spec/43_ringbuffer_stats.md R201 to R204,
R206, R208 to R210, R212, R215): the hysteresis of RB_SELECT, the checks of RB_STATS and the two tests. -/

namespace Sys2Proof.Machine

open Sys2Proof

/-! ### The hysteresis of RB_SELECT (R202, R215) -/

section
variable {c : Config} {r : Range} {x : Nat}

theorem nextRange_eq_high_iff : nextRange c r x = .high ↔
    r = .low ∧ c.tUp < x ∨ r = .high ∧ c.tDown ≤ x := by
  cases r <;> simp [nextRange]

theorem nextRange_eq_low_iff : nextRange c r x = .low ↔
    r = .low ∧ x ≤ c.tUp ∨ r = .high ∧ x < c.tDown := by
  cases r <;> simp [nextRange]

/-- R215: inside the band the range stays. -/
theorem nextRange_of_band (hlow : c.tDown ≤ x) (hhigh : x ≤ c.tUp) : nextRange c r x = r := by
  cases r with
  | low => exact nextRange_eq_low_iff.2 (.inl ⟨rfl, hhigh⟩)
  | high => exact nextRange_eq_high_iff.2 (.inr ⟨rfl, hlow⟩)

/-- R215: what a change of the range needs. -/
theorem nextRange_of_change (h : nextRange c r x ≠ r) :
    nextRange c r x = .high ∧ c.tUp < x ∨ nextRange c r x = .low ∧ x < c.tDown := by
  cases hnext : nextRange c r x with
  | high =>
    obtain ⟨-, hup⟩ | ⟨rfl, -⟩ := nextRange_eq_high_iff.1 hnext
    · exact .inl ⟨rfl, hup⟩
    · exact absurd hnext h
  | low =>
    obtain ⟨rfl, -⟩ | ⟨-, hdown⟩ := nextRange_eq_low_iff.1 hnext
    · exact absurd hnext h
    · exact .inr ⟨rfl, hdown⟩

/-- R7, R203: the window of either range holds at least SHORT entries. -/
theorem short_le_baseWindow (hwf : c.wf = true) (r : Range) : c.short ≤ baseWindow c r := by
  obtain ⟨-, -, -, -, ⟨-, -, -, hcap, hhigh, -⟩, -⟩ := (config_wf_iff c).1 hwf
  cases r with
  | low => exact hcap
  | high => exact hhigh

end

section
variable {s : State} {w x : Word}

/-! ### RB_SELECT (R203) -/

/-- R81: the word of an operation that reads operand A alone. -/
theorem encode_toNat_of_operandA {i : Instr} (hc : i.operandC = 0) (hb : i.operandB = 0) :
    (encode i).toNat = i.opcode * 2 ^ 59 + i.operandA.toNat := by
  rw [encode, requestWord_toNat _ _ _ _ i.opcode_lt, hc, hb]
  simp

theorem encode_rbSelect_toNat (x : Word) :
    (encode (.rbSelect x)).toNat = 0x6000000000000000 + x.toNat := by
  rw [encode_toNat_of_operandA rfl rfl]
  simp only [Instr.opcode, Instr.operandA]
  omega

theorem execRbSelect_of_nextRange {r : Range} (h : nextRange s.cfg s.rbs.range x.toNat = r) :
    execRbSelect x s = .next ((s.withRbs { s.rbs with range := r }).driveRes
      (zext32 (min (baseWindow s.cfg r) s.rbs.cValid.toNat))) := by
  rw [← h]; rfl

/-- The window RB_SELECT drives is the smaller of two numbers of entries, which needs no cut. -/
theorem zext32_window_toNat (n : Nat) (b : Byte) :
    (zext32 (min n b.toNat)).toNat = min n b.toNat :=
  zext32_toNat (by have := b.isLt; omega)

/-- A request of RB_SELECT with an estimate in the band leaves the range. -/
theorem step_rbSelect_of_band {rest : List Move} (hready : s.Ready) (hidle : s.op = .idle)
    (hmoves : s.moves = .request (encode (.rbSelect x)) :: rest)
    (hlow : s.cfg.tDown ≤ x.toNat) (hhigh : x.toNat ≤ s.cfg.tUp) :
    step s = .next ((s.beginMove rest).driveRes
      (zext32 (min (baseWindow s.cfg s.rbs.range) s.rbs.cValid.toNat))) :=
  (step_request_instr hready hidle hmoves (decode_encode _)).trans
    (execRbSelect_of_nextRange (s := s.beginMove rest) (nextRange_of_band hlow hhigh))

/-- R215: a sequence of such requests, by induction on it. -/
theorem runSteps_rbSelect_of_band {xs : List Word} {rest : List Move} (hready : s.Ready)
    (hidle : s.op = .idle)
    (hmoves : s.moves = xs.map (fun x => .request (encode (.rbSelect x))) ++ rest)
    (hband : ∀ x ∈ xs, s.cfg.tDown ≤ x.toNat ∧ x.toNat ≤ s.cfg.tUp) :
    ∃ t, runSteps xs.length s = .next t ∧ t.moves = rest ∧ t.rbs.range = s.rbs.range := by
  induction xs generalizing s with
  | nil => exact ⟨s, rfl, hmoves, rfl⟩
  | cons x xs ih =>
    obtain ⟨⟨hlow, hhigh⟩, htail⟩ := List.forall_mem_cons.1 hband
    have hstep := step_rbSelect_of_band hready hidle hmoves hlow hhigh
    rw [List.length_cons, runSteps_succ hstep]
    exact ih hready hidle rfl htail

/-! ### The first micro-step of RB_STATS (R204, R206, R255) -/

theorem execRbStats_unavailable (w : Word) (h : s.rbs.cValid.toNat < s.cfg.short) :
    execRbStats w s = .next ((s.withSnap .zero).driveRes 0) :=
  if_neg (by simpa [State.statsAvailable] using h)

theorem execRbStats_badWindow (havail : s.cfg.short ≤ s.rbs.cValid.toNat)
    (h : w.toNat < s.cfg.short ∨ s.rbs.cValid.toNat < w.toNat) :
    execRbStats w s = raiseFault .badWindow (originOf (.rbStats w)) s := by
  have hout : ¬ windowFits s w = true := by
    rw [windowFits, decide_eq_true_eq]
    omega
  exact (if_pos (decide_eq_true havail)).trans (if_neg hout)

theorem execRbStats_starts (hlow : s.cfg.short ≤ w.toNat) (hhigh : w.toNat ≤ s.rbs.cValid.toNat) :
    execRbStats w s = .next (s.withOp (.rbStats (.start s.cfg w))) :=
  (if_pos (decide_eq_true (hlow.trans hhigh))).trans (if_pos (decide_eq_true ⟨hlow, hhigh⟩))

/-! ### RB_EXCURSION and RB_DRIFT (R208, R209) -/

/-- R10: the square of `absdiff` is the square of the difference of the integers. -/
theorem absdiff_sq (a b : Nat) :
    ((absdiff a b * absdiff a b : Nat) : Int) = ((a : Int) - b) ^ 2 := by
  have hdiff : (absdiff a b : Int) = (a : Int) - b ∨ (absdiff a b : Int) = -((a : Int) - b) := by
    unfold absdiff
    omega
  rw [Nat.cast_mul, ← pow_two, sq_eq_sq_iff_eq_or_eq_neg]
  exact hdiff

theorem lt_absdiff_sq_iff {a b n : Nat} :
    n < absdiff a b * absdiff a b ↔ ((a : Int) - b) ^ 2 > (n : Int) := by
  rw [← absdiff_sq, gt_iff_lt, Nat.cast_lt]

theorem excursionFires_iff (c : Config) (rlong rshort : Nat) : excursionFires c rlong rshort = true ↔
    ((rlong : Int) - rshort) ^ 2 > c.excMult * (rlong * c.excScale / c.short : Nat) := by
  rw [excursionFires, decide_eq_true_eq, lt_absdiff_sq_iff, Nat.cast_mul]

theorem driftFires_iff (c : Config) (newer older : Nat) : driftFires c newer older = true ↔
    ((newer : Int) - older) ^ 2 > c.driftC * (newer + older : Nat) := by
  rw [driftFires, decide_eq_true_eq, lt_absdiff_sq_iff, Nat.cast_mul]

theorem execRbExcursion_available (h : s.snap.avail = true) : execRbExcursion s =
    .next (s.driveRes
      (flagWord (excursionFires s.cfg s.snap.rlong.toNat s.snap.rshort.toNat))) :=
  if_pos h

theorem execRbExcursion_unavailable (h : s.snap.avail = false) :
    execRbExcursion s = raiseFault .statsUnavailable (originOf .rbExcursion) s :=
  if_neg (by simp [h])

theorem execRbDrift_available (h : s.snap.avail = true) : execRbDrift s =
    .next (s.driveRes (flagWord (driftFires s.cfg s.snap.newer.toNat s.snap.older.toNat))) :=
  if_pos h

theorem execRbDrift_unavailable (h : s.snap.avail = false) :
    execRbDrift s = raiseFault .statsUnavailable (originOf .rbDrift) s :=
  if_neg (by simp [h])

end

/-- Settles O36: a critical section gives IE back, so the copy is the whole effect. -/
theorem copyTakesCursorAndValid : Obligations.CopyTakesCursorAndValid :=
  ⟨rfl, fun _ => rfl⟩

/-- Settles O44: a critical section gives IE back, so the cut is the whole effect. -/
theorem shrinkCutsTheLiveCount : Obligations.ShrinkCutsTheLiveCount :=
  ⟨rfl, fun _ => rfl⟩

/-- Settles O37, by the next range; LOW_RATE's window of CAP entries is always capped by C_VALID. -/
theorem selectFollowsTheNewRange : Obligations.SelectFollowsTheNewRange := by
  refine fun s x _ hvalid => ⟨encode_rbSelect_toNat x,
    fun h => execRbSelect_of_nextRange (nextRange_eq_high_iff.2 h), fun h => ?_⟩
  have hcapped : min (baseWindow s.cfg .low) s.rbs.cValid.toNat = s.rbs.cValid.toNat :=
    min_eq_right hvalid
  have hexec := execRbSelect_of_nextRange (nextRange_eq_low_iff.2 h)
  rw [hcapped] at hexec
  exact hexec

/-- Settles O38: the window is between SHORT and C_VALID, which is what RB_STATS checks. -/
theorem selectedWindowIsAccepted : Obligations.SelectedWindowIsAccepted := by
  intro s x hwf _ havail
  have hlow : s.cfg.short ≤
      min (baseWindow s.cfg (nextRange s.cfg s.rbs.range x.toNat)) s.rbs.cValid.toNat :=
    le_min (short_le_baseWindow hwf _) havail
  rw [← zext32_window_toNat] at hlow
  have hhigh := (zext32_window_toNat (baseWindow s.cfg (nextRange s.cfg s.rbs.range x.toNat))
    s.rbs.cValid).trans_le (min_le_right _ _)
  exact ⟨_, _, execRbSelect_of_nextRange rfl, rfl, hlow, hhigh, _, execRbStats_starts hlow hhigh,
    rfl, nofun⟩

/-- Settles O39, by induction on the requests and the inversion of a change. -/
theorem estimatesInTheBandKeepTheRange : Obligations.EstimatesInTheBandKeepTheRange := by
  refine ⟨fun _ _ _ => runSteps_rbSelect_of_band, fun s t x hexec hchange => ?_⟩
  cases hexec
  exact nextRange_of_change hchange

/-- Settles O40, by the three outcomes of the checks. -/
theorem statsFirstMicroStep : Obligations.StatsFirstMicroStep :=
  fun _ w => ⟨execRbStats_unavailable w, execRbStats_badWindow, execRbStats_starts⟩

/-- Settles O42, by the two outcomes and the comparison over the integers. -/
theorem excursionTest : Obligations.ExcursionTest := by
  refine ⟨rfl, fun s => ⟨fun havail => ?_, execRbExcursion_unavailable⟩⟩
  simp only [← excursionFires_iff]
  exact execRbExcursion_available havail

/-- Settles O43, by the two outcomes and the comparison over the integers. -/
theorem driftTest : Obligations.DriftTest := by
  refine ⟨rfl, fun s => ⟨fun havail => ?_, execRbDrift_unavailable⟩⟩
  simp only [← driftFires_iff]
  exact execRbDrift_available havail

end Sys2Proof.Machine
end

section
/-! The ring under pushes (spec/43_ringbuffer_stats.md R200, R213, R214): read backward from CURSOR, a
push puts its count in front and moves every older entry one place back. -/

namespace Sys2Proof.Machine

open Sys2Proof

/-! ### The slots of a backward traversal (R205) -/

section
variable {c : Config} {cursor i : Nat}

theorem ringSlot_zero (h : cursor < c.cap) : ringSlot c cursor 0 = cursor := by
  rw [ringSlot, Nat.sub_zero, Nat.add_mod_right, Nat.mod_eq_of_lt h]

/-- One slot further on, one more step back reaches the same slot. -/
theorem ringSlot_succ (h : cursor < c.cap) (hi : i < c.cap) :
    ringSlot c ((cursor + 1) % c.cap) (i + 1) = ringSlot c cursor i := by
  unfold ringSlot
  obtain hlt | heq : cursor + 1 < c.cap ∨ cursor + 1 = c.cap := by omega
  · rw [Nat.mod_eq_of_lt hlt]
    congr 1
    omega
  · rw [heq, Nat.mod_self, ← Nat.add_mod_right]
    congr 1
    omega

/-- Of the CAP entries only entry 0 is in the cursor's slot. -/
theorem ringSlot_succ_ne (h : cursor < c.cap) (hi : i + 1 < c.cap) :
    ringSlot c cursor (i + 1) ≠ cursor := by
  unfold ringSlot
  obtain hle | hlt := le_or_gt (i + 1) cursor
  · rw [show cursor + c.cap - (i + 1) = cursor - (i + 1) + c.cap by omega, Nat.add_mod_right,
      Nat.mod_eq_of_lt (by omega)]
    omega
  · rw [Nat.mod_eq_of_lt (by omega)]
    omega

end

/-! ### The entries from CURSOR -/

/-- Entry i of the backward traversal from CURSOR, as `State.copyEntry` is from C_CURSOR. -/
def State.liveEntry (s : State) (i : Nat) : Nat :=
  s.mem.ringEntry (ringSlot s.cfg s.rbs.cursor.toNat i)

/-- All CAP entries of that traversal, the most recent first. -/
def State.liveEntries (s : State) : List Nat := (List.range s.cfg.cap).map s.liveEntry

/-- The pushes of `counts`, the first one first. -/
abbrev State.pushAll (s : State) (counts : List Nat) : State :=
  counts.foldl (fun t x => push x t) s

/-- What a push needs to stay inside RB: the part of `State.RingInv` about its size and CURSOR. -/
abbrev State.RingSized (s : State) : Prop :=
  s.cfg.wf = true ∧ s.mem.rb.length = s.cfg.cap ∧ s.rbs.cursor.toNat < s.cfg.cap

section
variable {s : State} {x i : Nat} {counts : List Nat}

/-! ### One push (R200) -/

theorem push_cursor_of_sized (h : s.RingSized) :
    (push x s).rbs.cursor.toNat = (s.rbs.cursor.toNat + 1) % s.cfg.cap := by
  obtain ⟨hpos, hle, -⟩ := cap_bounds h.1
  exact push_cursor_toNat x s ⟨hpos, hle⟩

theorem push_keeps_sized (h : s.RingSized) : (push x s).RingSized := by
  have hcursor := push_cursor_of_sized (x := x) h
  obtain ⟨hwf, hlen, -⟩ := h
  exact ⟨hwf, List.length_set.trans hlen, hcursor.trans_lt (Nat.mod_lt _ (cap_bounds hwf).1)⟩

/-- The count pushed is in the slot of the new cursor. -/
theorem push_ringEntry_cursor (h : s.RingSized) :
    (push x s).mem.ringEntry (push x s).rbs.cursor.toNat = x := by
  rw [push_cursor_of_sized h]
  obtain ⟨hwf, hlen, -⟩ := h
  exact Memory.ringEntry_storeRing_same _ _ _ ((Nat.mod_lt _ (cap_bounds hwf).1).trans_eq hlen.symm)

/-- From the new cursor every entry is one place further back. -/
theorem push_ringSlot (h : s.RingSized) (hi : i < s.cfg.cap) :
    ringSlot s.cfg (push x s).rbs.cursor.toNat (i + 1) =
      ringSlot s.cfg s.rbs.cursor.toNat i := by
  rw [push_cursor_of_sized h]
  obtain ⟨-, -, hcursor⟩ := h
  exact ringSlot_succ hcursor hi

/-- R213: only the oldest of CAP entries is overwritten. -/
theorem push_ringEntry (h : s.RingSized) (hi : i + 1 < s.cfg.cap) :
    (push x s).mem.ringEntry (ringSlot s.cfg s.rbs.cursor.toNat i) =
      s.mem.ringEntry (ringSlot s.cfg s.rbs.cursor.toNat i) := by
  obtain ⟨-, -, hcursor⟩ := push_keeps_sized (x := x) h
  have hother := ringSlot_succ_ne hcursor hi
  rw [push_cfg, push_ringSlot h (by omega), push_cursor_of_sized h] at hother
  exact Memory.ringEntry_storeRing_other _ _ _ _ hother

theorem push_liveEntry_zero (h : s.RingSized) : (push x s).liveEntry 0 = x := by
  obtain ⟨-, -, hcursor⟩ := push_keeps_sized (x := x) h
  rw [State.liveEntry, ringSlot_zero hcursor, push_ringEntry_cursor h]

theorem push_liveEntry_succ (h : s.RingSized) (hi : i + 1 < s.cfg.cap) :
    (push x s).liveEntry (i + 1) = s.liveEntry i := by
  rw [State.liveEntry, push_cfg, push_ringSlot h (by omega), push_ringEntry h hi, State.liveEntry]

/-- The traversal yields the count pushed, then the entries from before, CAP in all. -/
theorem push_liveEntries (h : s.RingSized) :
    (push x s).liveEntries = (x :: s.liveEntries).take s.cfg.cap := by
  obtain ⟨n, hn⟩ : ∃ n, s.cfg.cap = n + 1 := Nat.exists_eq_add_one.2 (cap_bounds h.1).1
  have htail : (List.range n).map ((push x s).liveEntry ∘ Nat.succ) =
      (List.range n).map s.liveEntry :=
    List.map_congr_left fun i hi =>
      push_liveEntry_succ h (by have := List.mem_range.1 hi; omega)
  have htake : s.liveEntries.take n = (List.range n).map s.liveEntry := by
    rw [State.liveEntries, ← List.map_take, List.take_range, hn, min_eq_left n.le_succ]
  rw [State.liveEntries, push_cfg, hn, List.range_succ_eq_map, List.map_cons, List.map_map,
    push_liveEntry_zero h, htail, List.take_succ_cons, htake]

/-! ### A sequence of pushes (R213, R214) -/

theorem pushAll_cfg (s : State) (counts : List Nat) : (s.pushAll counts).cfg = s.cfg := by
  induction counts generalizing s with
  | nil => rfl
  | cons x counts ih => exact ih (push x s)

/-- R213: entry i stays in its slot while i and the number of pushes together are below CAP, by
induction on the pushes: each one moves the entry one place back. -/
theorem pushAll_ringEntry (h : s.RingSized) (hi : i + counts.length < s.cfg.cap) :
    (s.pushAll counts).mem.ringEntry (ringSlot s.cfg s.rbs.cursor.toNat i) =
      s.mem.ringEntry (ringSlot s.cfg s.rbs.cursor.toNat i) := by
  induction counts generalizing s i with
  | nil => rfl
  | cons x counts ih =>
    rw [List.length_cons] at hi
    have hrest := ih (push_keeps_sized (x := x) h) (i := i + 1) (by rw [push_cfg]; omega)
    rw [push_cfg, push_ringSlot h (by omega)] at hrest
    exact hrest.trans (push_ringEntry h (by omega))

/-- R214: the traversal yields the counts pushed in reverse, then the entries from before, CAP in all.
-/
theorem pushAll_liveEntries (h : s.RingSized) :
    (s.pushAll counts).liveEntries = (counts.reverse ++ s.liveEntries).take s.cfg.cap := by
  induction counts generalizing s with
  | nil => simp [State.liveEntries]
  | cons x counts ih =>
    have hrest := ih (push_keeps_sized (x := x) h)
    rw [push_cfg, push_liveEntries h, List.take_append, List.take_take,
      min_eq_left (Nat.sub_le _ _), ← List.take_append] at hrest
    rw [List.reverse_cons, List.append_assoc]
    exact hrest

/-- R41: VALID counts the pushes up to CAP. -/
theorem pushAll_valid (hwf : s.cfg.wf = true) (hvalid : s.rbs.valid.toNat ≤ s.cfg.cap) :
    (s.pushAll counts).rbs.valid.toNat = min (s.rbs.valid.toNat + counts.length) s.cfg.cap := by
  induction counts generalizing s with
  | nil => exact (min_eq_left hvalid).symm
  | cons x counts ih =>
    have hpush := push_valid_toNat x s (cap_bounds hwf).2.1
    have hrest := ih (s := push x s) hwf (hpush.trans_le (min_le_right _ _))
    rw [hpush, push_cfg] at hrest
    rw [List.length_cons]
    exact hrest.trans (by omega)

end

/-- Settles O46: an entry i < W has i + m < CAP, so no push overwrites it. -/
theorem pushesLeaveTheWindowIntact : Obligations.PushesLeaveTheWindowIntact :=
  fun _ _ _ _ hwf hlen hcursor hroom hi => pushAll_ringEntry ⟨hwf, hlen, hcursor⟩ (by omega)

/-- Settles O47, by the entries from CURSOR after the pushes, which RB_COPY makes those from C_CURSOR.
-/
theorem ringHoldsTheLastPushesInReverse : Obligations.RingHoldsTheLastPushesInReverse := by
  intro s counts hwf hlen hcursor hvalid hmany
  have hfull : (s.pushAll counts).rbs.valid.toNat = s.cfg.cap :=
    (pushAll_valid hwf hvalid).trans (min_eq_right (by omega))
  have hentries := pushAll_liveEntries (counts := counts) ⟨hwf, hlen, hcursor⟩
  rw [State.liveEntries, pushAll_cfg,
    List.take_append_of_le_length (by rwa [List.length_reverse])] at hentries
  refine ⟨hfull, _, copyTakesCursorAndValid.2 _, hfull, ?_⟩
  show (List.range s.cfg.cap).map (s.pushAll counts).liveEntry = _
  exact hentries

end Sys2Proof.Machine
end

section
/-! An undisturbed RB_STATS (spec/43_ringbuffer_stats.md R205 to R207): the bytes of an entry, the entries
of the window one after the other, and the last micro-step from their sums. -/

namespace Sys2Proof.Machine

open Sys2Proof

/-! ### The sums of the first entries (R205) -/

section
variable (s : State)

/-- The sum over the first n entries once j of them have been read; 0 before. -/
def State.checkpoint (n j : Nat) : Nat := if n ≤ j then s.copySum n else 0

/-- The traversal of a window w from C_CURSOR after its first j entries. -/
def State.traversalAt (w : Word) (j : Nat) : Traversal where
  window := w
  i := j
  entry := .start s.cfg.pcw
  total := s.copySum j
  newer := s.checkpoint (w.toNat / 2) j
  short := s.checkpoint s.cfg.short j

theorem copySum_succ (j : Nat) : s.copySum (j + 1) = s.copySum j + s.copyEntry j := by
  simp [State.copySum, List.range_succ]

theorem checkpoint_zero (n : Nat) : s.checkpoint n 0 = 0 := by
  unfold State.checkpoint
  split
  case isTrue h => rw [Nat.le_zero.1 h]; rfl
  case isFalse => rfl

theorem checkpoint_succ (n j : Nat) : s.checkpoint n (j + 1) =
    if j + 1 = n then s.copySum j + s.copyEntry j else s.checkpoint n j := by
  unfold State.checkpoint
  split_ifs with hle heq
  · rw [← heq, copySum_succ]
  · rfl
  all_goals omega

theorem checkpoint_of_le {n j : Nat} (h : n ≤ j) : s.checkpoint n j = s.copySum n := if_pos h

theorem traversalAt_zero (w : Word) : s.traversalAt w 0 = .start s.cfg w := by
  simp only [State.traversalAt, checkpoint_zero]
  rfl

theorem traversalAt_succ (w : Word) (j : Nat) :
    s.traversalAt w (j + 1) = (s.traversalAt w j).addEntry s.cfg (s.copyEntry j) := by
  simp only [State.traversalAt, checkpoint_succ, copySum_succ]
  rfl

end

/-! ### Micro-steps one after the other (R206) -/

theorem runSteps_one (s : State) : runSteps 1 s = step s := by
  cases hstep : step s <;> simp [runSteps, hstep]

/-- s inside RB_STATS with the traversal v, after n byte reads, with the schedule ms. -/
def State.inStats (s : State) (v : Traversal) (ms : List Move) (n : Nat) : State :=
  { s with moves := ms, picks := s.picks.drop n, out := [], op := .rbStats v }

/-- n undisturbed micro-steps take the traversal u to v, whatever is scheduled after them and however
many choices of byte orders are used up before. -/
def State.Traverses (s : State) (n : Nat) (u v : Traversal) : Prop :=
  ∀ ms k, runSteps n (s.inStats u (List.replicate n .micro ++ ms) k) =
    .next (s.inStats v ms (k + n))

section
variable {s : State} {v : Traversal} {w : Word}

theorem State.Traverses.trans {m n : Nat} {u x : Traversal} (h : s.Traverses m u v)
    (h' : s.Traverses n v x) : s.Traverses (m + n) u x := by
  intro ms k
  rw [List.replicate_add, List.append_assoc, runSteps_add (h _ k), h' ms, Nat.add_assoc]

theorem step_inStats (hready : s.Ready) (ms : List Move) (k : Nat) :
    step (s.inStats v (.micro :: ms) k) = statsStep v (s.inStats v ms k) :=
  step_micro (s := s.inStats v (.micro :: ms) k) hready rfl

/-- A byte read uses up one choice. -/
theorem inStats_usePick (s : State) (u v : Traversal) (ms : List Move) (k : Nat) :
    ((s.inStats u ms k).usePick.withOp (.rbStats v)) = s.inStats v ms (k + 1) := by
  unfold State.inStats
  rw [← List.tail_drop]
  rfl

/-- A micro-step while entries are left reads a byte of the entry the traversal has come to. -/
theorem step_inStats_reads (hready : s.Ready) (hi : v.i < v.window.toNat) (ms : List Move)
    (k : Nat) : step (s.inStats v (.micro :: ms) k) =
      .next (s.inStats (v.readByte s.cfg (s.copyEntry v.i) (s.inStats v ms k).pick) ms (k + 1)) := by
  rw [step_inStats hready, ← inStats_usePick s v]
  exact if_pos hi

/-- A byte of an entry with more bytes left. -/
theorem readByte_of_more {c : Config} {e pick : Nat} (h : (v.entry.read e pick).left ≠ []) :
    v.readByte c e pick = { v with entry := v.entry.read e pick } :=
  if_neg (by simpa using h)

/-- The last byte of an entry: the value read is the entry. -/
theorem readByte_of_last {c : Config} {e pick : Nat} (hreads : (v.entry.read e pick).Reads e)
    (h : (v.entry.read e pick).left = []) : v.readByte c e pick = v.addEntry c e := by
  rw [← congrArg (v.addEntry c) (hreads.value_eq h)]
  exact if_pos (by simpa using h)

/-- R205: the bytes of an entry still left, in whatever order, complete it. -/
theorem traverses_entry (hready : s.Ready) {n : Nat} (hi : v.i < v.window.toNat)
    (hleft : v.entry.left.length = n + 1) (hreads : v.entry.Reads (s.copyEntry v.i)) :
    s.Traverses (n + 1) v (v.addEntry s.cfg (s.copyEntry v.i)) := by
  induction n generalizing v with
  | zero =>
    intro ms k
    have hne : v.entry.left ≠ [] := List.ne_nil_of_length_eq_add_one hleft
    have hlast : (v.entry.read (s.copyEntry v.i) (s.inStats v ms k).pick).left = [] := by
      rw [← List.length_eq_zero_iff, v.entry.read_left_length _ _ hne, hleft]
    have hstep := step_inStats_reads hready hi ms k
    rw [readByte_of_last (hreads.read _ hne) hlast] at hstep
    exact runSteps_succ hstep
  | succ n ih =>
    intro ms k
    have hne : v.entry.left ≠ [] := List.ne_nil_of_length_eq_add_one hleft
    have hstep := step_inStats_reads hready hi (List.replicate (n + 1) .micro ++ ms) k
    generalize (s.inStats v (List.replicate (n + 1) .micro ++ ms) k).pick = pick at hstep
    have hlen : (v.entry.read (s.copyEntry v.i) pick).left.length = n + 1 := by
      rw [v.entry.read_left_length _ _ hne, hleft, Nat.add_sub_cancel]
    rw [readByte_of_more (List.ne_nil_of_length_eq_add_one hlen)] at hstep
    rw [List.replicate_succ, List.cons_append, runSteps_succ hstep,
      Nat.add_comm (n + 1) 1, ← Nat.add_assoc]
    exact ih (v := { v with entry := v.entry.read (s.copyEntry v.i) pick }) hi hlen
      (hreads.read _ hne) ms (k + 1)

/-- R39: every entry read is a PCW-bit value. -/
theorem copyEntry_lt (hring : s.RingInv) (i : Nat) : s.copyEntry i < 2 ^ s.cfg.pcw := by
  obtain ⟨-, ⟨-, -, hentries⟩, -⟩ := hring
  rw [State.copyEntry, Memory.ringEntry, List.getD_eq_getElem?_getD]
  cases hget : s.mem.rb[ringSlot s.cfg s.rbs.cCursor.toNat i]? with
  | none => exact Nat.two_pow_pos _
  | some e => exact hentries e (List.mem_of_getElem? hget)

/-- R205: one entry of the window, from its first byte. -/
theorem traverses_next_entry (hready : s.Ready) (hring : s.RingInv) {j : Nat} (hj : j < w.toNat) :
    s.Traverses (s.cfg.pcw / 8) (s.traversalAt w j) (s.traversalAt w (j + 1)) := by
  obtain ⟨-, -, ⟨hlow, -, hbytes⟩, -⟩ := (config_wf_iff s.cfg).1 hready.1
  obtain ⟨n, hn⟩ : ∃ n, s.cfg.pcw / 8 = n + 1 := Nat.exists_eq_add_one.2 (by omega)
  rw [hn, traversalAt_succ]
  exact traverses_entry hready hj (List.length_range.trans hn)
    (start_reads hbytes (copyEntry_lt hring j))

/-- R205: the first j entries of the window. -/
theorem traverses_entries (hready : s.Ready) (hring : s.RingInv) {j : Nat} (hj : j ≤ w.toNat) :
    s.Traverses (j * (s.cfg.pcw / 8)) (.start s.cfg w) (s.traversalAt w j) := by
  induction j with
  | zero =>
    rw [Nat.zero_mul, traversalAt_zero]
    exact fun _ _ => rfl
  | succ j ih =>
    rw [Nat.succ_mul]
    exact (ih (by omega)).trans (traverses_next_entry hready hring hj)

/-! ### The snapshot (R206, R207) -/

/-- R205: at the end of a good window both checkpoints have been taken. -/
theorem traversalAt_window (hshort : s.cfg.short ≤ w.toNat) : s.traversalAt w w.toNat =
    { window := w, i := w.toNat, entry := .start s.cfg.pcw, total := s.copySum w.toNat,
      newer := s.copySum (w.toNat / 2), short := s.copySum s.cfg.short } := by
  rw [State.traversalAt, checkpoint_of_le s (Nat.div_le_self _ _), checkpoint_of_le s hshort]

/-- R207, R102: the tolerance in terms of the floor of the root. -/
theorem tolerance_eq_sqrt {total : Nat} (c : Config) (h : total < 2 ^ 32) :
    tolerance c total = if total = 0 then 0 else c.k2 / Nat.sqrt total := by
  rw [tolerance, isqrt_eq_sqrt h]

/-- The snapshot of sums that fit in their registers. -/
def Snapshot.ofSums (c : Config) (window total newer short : Nat) : Snapshot where
  avail := true
  window := BitVec.ofNat 8 window
  total := zext32 total
  newer := zext32 newer
  older := zext32 (total - newer)
  short := zext32 short
  rlong := zext32 (c.k * total / window)
  rshort := zext32 (c.k * short / c.short)
  tol := zext32 (if total = 0 then 0 else c.k2 / Nat.sqrt total)
  tolv := decide (1 ≤ total)

/-- The total or a rate does not fit in 32 bits (R206). -/
abbrev SumsOverflow (c : Config) (window total short : Nat) : Prop :=
  2 ^ 32 ≤ total ∨ 2 ^ 32 ≤ c.k * total / window ∨ 2 ^ 32 ≤ c.k * short / c.short

theorem computeSnapshot_of_fits {c : Config} {window total newer short : Nat}
    (h : ¬ SumsOverflow c window total short) :
    computeSnapshot c window total newer short = some (.ofSums c window total newer short) := by
  have htotal : total < 2 ^ 32 := by unfold SumsOverflow at h; omega
  refine (if_neg h).trans ?_
  simp only [Snapshot.ofSums, tolerance_eq_sqrt c htotal, Nat.one_le_iff_ne_zero]

theorem computeSnapshot_of_overflow {c : Config} {window total newer short : Nat}
    (h : SumsOverflow c window total short) :
    computeSnapshot c window total newer short = none :=
  if_pos h

theorem statsFinish_of_fits
    (h : ¬ SumsOverflow s.cfg v.window.toNat v.total v.short) : statsFinish v s =
      .next (((s.withSnap (.ofSums s.cfg v.window.toNat v.total v.newer v.short)).withOp
        .idle).driveRes 1) := by
  rw [statsFinish, computeSnapshot_of_fits h]

theorem statsFinish_of_overflow (h : SumsOverflow s.cfg v.window.toNat v.total v.short) :
    statsFinish v s = raiseFault .overflow (originOf (.rbStats v.window)) s := by
  rw [statsFinish, computeSnapshot_of_overflow h]

/-! ### The whole operation (R206) -/

/-- The accepted request, every byte of the window, and the last micro-step, which
gets the sums of the window. -/
theorem runSteps_rbStats {rest : List Move} (hready : s.Ready) (hring : s.RingInv)
    (hidle : s.op = .idle) (hlow : s.cfg.short ≤ w.toNat) (hhigh : w.toNat ≤ s.rbs.cValid.toNat)
    (hmoves : s.moves = .request (encode (.rbStats w)) ::
      (List.replicate (w.toNat * (s.cfg.pcw / 8) + 1) .micro ++ rest)) :
    runSteps (w.toNat * (s.cfg.pcw / 8) + 2) s =
      statsFinish (s.traversalAt w w.toNat)
        (s.inStats (s.traversalAt w w.toNat) rest (w.toNat * (s.cfg.pcw / 8))) := by
  have haccept : step s = .next (s.inStats (.start s.cfg w)
      (List.replicate (w.toNat * (s.cfg.pcw / 8)) .micro ++ .micro :: rest) 0) := by
    rw [List.replicate_succ', List.append_assoc] at hmoves
    exact (step_request_instr hready hidle hmoves (decode_encode _)).trans
      (execRbStats_starts (s := s.beginMove _) hlow hhigh)
  have hreads := traverses_entries (w := w) hready hring le_rfl (.micro :: rest) 0
  have hfinish : step (s.inStats (s.traversalAt w w.toNat) (.micro :: rest)
      (w.toNat * (s.cfg.pcw / 8))) = statsFinish (s.traversalAt w w.toNat) _ :=
    (step_inStats hready rest _).trans (if_neg (lt_irrefl w.toNat))
  rw [Nat.zero_add] at hreads
  rw [runSteps_succ haccept, runSteps_add hreads, ← hfinish]
  exact runSteps_one _

end

/-- Settles O41: the micro-steps come to the sums of the window, and the last one writes their snapshot
where they fit and OVERFLOW where they do not. -/
theorem undisturbedStatsComputeTheSnapshot : Obligations.UndisturbedStatsComputeTheSnapshot := by
  intro s w rest hready hring hidle hlow hhigh hmoves
  have hrun := runSteps_rbStats hready hring hidle hlow hhigh hmoves
  rw [traversalAt_window hlow] at hrun
  refine ⟨fun htotal hrlong hrshort => ?_, fun hover => ?_⟩
  · have hfits : ¬ SumsOverflow s.cfg w.toNat (s.copySum w.toNat) (s.copySum s.cfg.short) := by
      unfold SumsOverflow
      omega
    rw [hidle]
    exact hrun.trans (statsFinish_of_fits hfits)
  · exact ⟨_, hrun.trans (statsFinish_of_overflow hover), rfl, rfl⟩

end Sys2Proof.Machine
end

section
/-! The exceptions (spec/60_exceptions.md): a step that records a fault writes FAULT alone (R251, R255),
and a halted block has no step but RESET (R250). -/

namespace Sys2Proof.Machine

open Sys2Proof

section
variable {s t : State}

/-! ### FAULT is written alone (R251, R255) -/

/-- The precision of faults, from s to t: FAULT is as it was, or nothing else is changed. -/
def FaultPrecise (s t : State) : Prop := t.fault = s.fault ∨ t = s.withFault t.fault

theorem FaultPrecise.of_keeps (h : t.fault = s.fault) : FaultPrecise s t := .inl h

theorem FaultPrecise.of_raises (r : Option FaultRecord) : FaultPrecise s (s.withFault r) := .inr rfl

/-- Where there was no fault before, a recorded one is the only change. -/
theorem FaultPrecise.eq_withFault (h : FaultPrecise s t) (hnone : s.fault = none)
    (hfault : t.fault ≠ none) : t = s.withFault t.fault :=
  h.resolve_left fun hkeeps => hfault (hkeeps.trans hnone)

/-- The tick handler body raises no fault (R162 to R165). -/
@[simp] theorem tickBody_fault (s : State) : (tickBody s).fault = s.fault := by
  obtain ⟨_, _, _, _, _, hbody, -⟩ := tickBody_frame s
  rw [hbody]

/-- A micro-step of TMR_READ_SYNC raises no fault (R167). -/
theorem syncStep_keeps_fault {l sh : ByteAcc} (h : syncStep l sh s = .next t) :
    t.fault = s.fault := by
  obtain ⟨_, _, -, rfl⟩ := syncStep_frame h
  rfl

/-- A later micro-step of RB_STATS raises OVERFLOW or no fault (R206). -/
theorem statsStep_faultPrecise {v : Traversal} (h : statsStep v s = .next t) :
    FaultPrecise s t := by
  obtain ⟨-, rfl⟩ | ⟨-, _, -, rfl⟩ | ⟨-, -, rfl⟩ := statsStep_next h
  · exact .of_keeps rfl
  · exact .of_keeps rfl
  · exact .of_raises _

theorem ExecEffect.faultPrecise {i : Instr} (h : ExecEffect i s t) : FaultPrecise s t := by
  cases h with
  | faults => exact .of_raises _
  | tmrReadSync _ _ hsync => exact .of_keeps (syncStep_keeps_fault hsync)
  | _ => exact .of_keeps (by simp)

/-- Only an illegal word, an operation, the last micro-step of RB_STATS and the edge handler can raise
a fault, and they raise it before they write anything. -/
theorem TurnEffect.faultPrecise {m : Move} (h : TurnEffect m s t) : FaultPrecise s t := by
  cases h with
  | illegal => exact .of_raises _
  | instr _ _ _ _ _ _ hexec => exact hexec.faultPrecise
  | sync _ _ _ _ _ hsync => exact .of_keeps (syncStep_keeps_fault hsync)
  | stats _ _ _ _ hstats => exact statsStep_faultPrecise hstats
  | edgeOverflow => exact .of_raises _
  | nothing | edgeHandler | tickHandler | edge | tick | reset => exact .of_keeps (by simp)

/-! ### A halted block (R250) -/

/-- R250: a halted block's move, unless it is RESET, is used up and does nothing. -/
theorem step_of_halted {m : Move} {rest : List Move} (hwf : s.cfg.wf = true)
    (hnone : s.fault = none) (hhalted : s.status.halted = true) (hm : m ≠ .reset)
    (hmoves : s.moves = m :: rest) : step s = .next (s.beginMove rest) :=
  step_next.2 ⟨hwf, hnone, .inr ⟨m, rest, hmoves, runMove_next.2 (.inr (.inl ⟨hm, hhalted, rfl⟩))⟩⟩

end

/-- Settles O53: the one turn of a faulting step is precise, and it began with its move used up and no
output driven. -/
theorem faultingStepWritesNothingElse : Obligations.FaultingStepWritesNothingElse := by
  intro s t h hfault
  obtain ⟨-, hnone, -⟩ := step_next.1 h
  obtain ⟨-, rfl⟩ | ⟨m, rest, hmoves, hturn⟩ := step_turn h
  · exact absurd hnone hfault
  · rw [hmoves]
    exact hturn.faultPrecise.eq_withFault hnone hfault

/-- Settles O8, by the lemma on the step of a halted block. -/
theorem haltedBlockOnlyResets : Obligations.HaltedBlockOnlyResets :=
  fun _ _ _ => step_of_halted

end Sys2Proof.Machine
end

section
/-! Reset and its hazards (spec/70_reset_and_hazards.md): the values RESET gives the registers (R280),
the initial state of a run (R281), and the timer that only RESET returns to IDLE (R289). -/

namespace Sys2Proof.Machine

open Sys2Proof

section
variable {s t : State} {c : Config}

/-! ### The reset values (R280, R281) -/

/-- CAP - 1 fits the 8-bit cursors (R7, R40). -/
theorem resetWith_cursor_toNat (hwf : c.wf = true) :
    (State.resetWith c).rbs.cursor.toNat = c.cap - 1 := by
  obtain ⟨-, hle, -⟩ := cap_bounds hwf
  exact Nat.mod_eq_of_lt (show c.cap - 1 < 2 ^ 8 by omega)

/-- RESET is taken halted or not, and inside an operation (R280). -/
theorem step_reset {rest : List Move} (hwf : s.cfg.wf = true) (hfault : s.fault = none)
    (hmoves : s.moves = .reset :: rest) : step s = .next (takeReset (s.beginMove rest)) :=
  step_next.2 ⟨hwf, hfault, .inr ⟨.reset, rest, hmoves, runMove_next.2 (.inl ⟨rfl, rfl⟩)⟩⟩

/-! ### The invariants in the initial state -/

/-- SHADOW = 1 is LIVE + 1 in a timer of at least one bit (R35). -/
theorem resetWith_timerInv (hwf : c.wf = true) : (State.resetWith c).TimerInv := by
  have hshadow : 1 = (0 + 1) % 2 ^ c.tw :=
    (Nat.mod_eq_of_lt (Nat.one_lt_two_pow (tw_pos hwf).ne')).symm
  exact ⟨hwf, Nat.two_pow_pos _, le_rfl, hshadow, ⟨nofun, nofun⟩, fun _ => rfl, nofun, nofun⟩

/-- The unit waits for the first magic byte with CHKACC = CHK_INIT (R121). -/
theorem resetWith_framingInv (hwf : c.wf = true) : (State.resetWith c).FramingInv := by
  obtain ⟨-, hinit, -⟩ := (config_wf_iff c).1 hwf
  exact framingInv_iff.2 ⟨⟨hwf, List.length_replicate, hinit, nofun, fun h => absurd rfl h⟩, rfl, rfl⟩

/-- Both cursors on the last slot, both counts 0, and the ring of its size (R39 to R43). -/
theorem resetWith_ringInv (hwf : c.wf = true) : (State.resetWith c).RingInv := by
  obtain ⟨hpos, -⟩ := cap_bounds hwf
  have hcursor : (State.resetWith c).rbs.cursor.toNat < c.cap := by
    rw [resetWith_cursor_toNat hwf]
    exact Nat.sub_lt hpos Nat.one_pos
  exact ⟨hwf, resetWith_wf c, Nat.two_pow_pos _, hcursor, Nat.zero_le _, hcursor, Nat.zero_le _⟩

/-- No statistics and no traversal in progress (R44, R45). -/
theorem resetWith_snapshotInv (hwf : c.wf = true) : (State.resetWith c).SnapshotInv :=
  snapshotInv_of_zero (resetWith_ringInv hwf) rfl nofun

/-! ### The timer mode (R36, R289) -/

/-- R162 to R165: the tick handler body keeps the mode, or ends a TOTAL measurement. -/
theorem tickBody_tmode (s : State) :
    (tickBody s).ct.tmode = s.ct.tmode ∨ (tickBody s).ct.tmode = .stopped := by
  rw [tickBody_eq]
  split
  case isFalse => exact .inl rfl
  split
  case isFalse => exact .inl rfl
  split
  case isTrue => exact .inr rfl
  case isFalse => exact .inl rfl

/-- R289: of a timer that is not idle only the tick handler writes the mode, RESET aside, and it
writes STOPPED. -/
theorem TurnEffect.keeps_busy {m : Move} (h : TurnEffect m s t) (hreset : m ≠ .reset)
    (hbusy : s.ct.tmode ≠ .idle) : t.ct.tmode ≠ .idle := by
  by_cases hisr : m = .tickIsr
  · cases h with
    | nothing => exact hbusy
    | tickHandler =>
      obtain hsame | hstopped := tickBody_tmode (s.setIe false)
      · exact fun hidle => hbusy (hsame.symm.trans hidle)
      · exact fun hidle => absurd (hstopped.symm.trans hidle) nofun
    | _ => cases hisr
  · obtain ⟨htimer, -⟩ := h.sameTimer hreset hisr hbusy
    rw [htimer]
    exact hbusy

end

/-- Settles O54, by what a turn does to a timer that is not idle. -/
theorem onlyResetReturnsTheTimerToIdle : Obligations.OnlyResetReturnsTheTimerToIdle := by
  intro s t h hreset hbusy
  obtain ⟨-, rfl⟩ | ⟨m, rest, hmoves, hturn⟩ := step_turn h
  · exact hbusy
  · rw [hmoves] at hreset
    exact hturn.keeps_busy (fun hm => hreset (congrArg some hm)) hbusy

/-- Settles O10: the step is the RESET event, which reads off its values; the cursors hold CAP - 1. -/
theorem resetEventRestoresTheRegisters : Obligations.ResetEventRestoresTheRegisters := by
  intro s rest hwf hfault hmoves
  have hcursor := resetWith_cursor_toNat hwf
  exact ⟨_, step_reset hwf hfault hmoves, rfl, rfl, hfault, rfl, rfl, rfl, rfl, rfl, rfl, rfl,
    hcursor, rfl, rfl, hcursor, rfl, rfl, rfl⟩

/-- Settles O11: the initial state is written out with its values; the cursors hold CAP - 1. -/
theorem initialStateIsTheResetState : Obligations.InitialStateIsTheResetState := by
  intro c hwf
  have hcursor := resetWith_cursor_toNat hwf
  exact ⟨rfl, rfl, rfl, rfl, rfl, rfl, rfl, rfl, hcursor, rfl, rfl, hcursor, rfl, rfl, rfl⟩

/-- Settles O50, by the lemma for each invariant; the ring invariant is part of the snapshot's. -/
theorem resetMeetsTheInvariants : Obligations.ResetMeetsTheInvariants :=
  fun _ hwf => ⟨resetWith_timerInv hwf, resetWith_framingInv hwf, resetWith_snapshotInv hwf⟩

end Sys2Proof.Machine
end
